-- ==== Sys2Proof/Word.lean ====
section
/-! DEFINITION. The byte, the unit of every field JVSCORE interprets (20_memory.md R63), and its plainest arithmetic
(00_scope.md R9): addition and subtraction mod 256 are `BitVec`'s own `+` and `-`. -/

namespace Sys2Proof

/-- A byte is an 8-bit unsigned value 0..255 (R9). -/
abbrev Byte := BitVec 8

/-- The 11-bit word `op[2:0] arg[7:0]` of the caller bus (R102). -/
abbrev CallerWord := BitVec 11

end Sys2Proof
end

