-- ==== Sys2Proof/Config.lean ====
section
/-! DEFINITION. The configuration of 00_scope.md R7, fixed for the life of an instance (R21), its named default, and the
free values the spec leaves open. -/

namespace Sys2Proof

/-- `SYNC_IN_FRAME`: what a SYNC byte does while a frame is being received (R7, R131). -/
inductive SyncInFrame where
  | store
  | restart
deriving DecidableEq, Repr

/-- `RETRY_EMPTY_STATUS`: the status of a retry with nothing retained (R7, R229). -/
inductive RetryEmptyStatus where
  | statusUnknown
  | statusOverflow
deriving DecidableEq, Repr

/-- The three byte-addressed storage spaces (R60). -/
inductive Space where
  | rx
  | tx
  | ret
deriving DecidableEq, Repr

/-- One field for each row of the table of R7. The capacities are natural numbers: R7 gives 256 a width of 9 bits, and
the spec only compares and adds them. -/
structure Config where
  sync : Byte
  esc : Byte
  broadcast : Byte
  hostAddr : Byte
  addrMin : Byte
  addrMax : Byte
  rxCap : Nat
  txCap : Nat
  qMax : Nat
  retCap : Nat
  cmdReset : Byte
  resetArg : Byte
  cmdSetaddr : Byte
  cmdRetry : Byte
  statusNormal : Byte
  statusUnknown : Byte
  statusSumError : Byte
  statusOverflow : Byte
  reportOk : Byte
  reportParamNoresp : Byte
  reportParamIgnored : Byte
  reportBusy : Byte
  syncInFrame : SyncInFrame
  retryEmptyStatus : RetryEmptyStatus
deriving DecidableEq, Repr

namespace Config

/-- The named default of R7. The marker, opcode, status and report values are PRESUMED by the spec itself (its rows
marked gk, 93_implementation_defined.md G1 to G4); log entry 2. -/
def default : Config where
  sync := 0xE0
  esc := 0xD0
  broadcast := 0xFF
  hostAddr := 0x00
  addrMin := 1
  addrMax := 31
  rxCap := 256
  txCap := 256
  qMax := 253
  retCap := 513
  cmdReset := 0xF0
  resetArg := 0xD9
  cmdSetaddr := 0xF1
  cmdRetry := 0x2F
  statusNormal := 0x01
  statusUnknown := 0x02
  statusSumError := 0x03
  statusOverflow := 0x04
  reportOk := 0x01
  reportParamNoresp := 0x02
  reportParamIgnored := 0x03
  reportBusy := 0x04
  syncInFrame := .store
  retryEmptyStatus := .statusUnknown

/-- The number of bytes of a storage space (R60). -/
def capacity (c : Config) : Space → Nat
  | .rx => c.rxCap
  | .tx => c.txCap
  | .ret => c.retCap

/-- FREE VALUE (log entry 3): the byte a rule reads at an index of a space that nothing has written since the last
reset, which R49 has a model "represent as a draw at reset, never as a chosen value" (U7, U8). The first argument
counts the resets, so that each reset draws anew. -/
opaque unspecifiedByte : Nat → Space → Nat → Byte

end Config

end Sys2Proof
end

