-- ==== Sys2Proof/Syntax.lean ====
section
/-! DEFINITION. The events and command heads of JVSCORE: one constructor of `Instr` for each row of
spec/opcode_table.json, and the forms in which the agents present them (30_encoding.md R85, R90, R100 to R106). -/

namespace Sys2Proof

/-- The 17 rows of spec/opcode_table.json: the eight caller operations (R102), the three receive classes (R85), the
transmit transfer (R100), the four command heads (R90) and the reset input (R104). -/
inductive Instr where
  /-- `NOP` (R263). -/
  | nop
  /-- `GET_NEXT` (R161). -/
  | getNext
  /-- `CONSUME(n)` (R162, R163). -/
  | consume (n : Byte)
  /-- `PUSH_REPORT(c)` (R201). -/
  | pushReport (c : Byte)
  /-- `PUSH_DATA(b)` (R202). -/
  | pushData (b : Byte)
  /-- `BEGIN` (R260). -/
  | beginOp
  /-- `END` (R262). -/
  | endOp
  /-- `UNKNOWN_CMD` (R164). -/
  | unknownCmd
  /-- `RX_SYNC`: the receive port accepts the byte `SYNC` (R122, R131). -/
  | rxSync
  /-- `RX_MARK`: the receive port accepts the byte `ESC` (R123). -/
  | rxMark
  /-- `RX_DATA`: the receive port accepts any other byte (R124). -/
  | rxData (b : Byte)
  /-- `TX_EMIT` (R240). -/
  | txEmit
  /-- `RESET` at a command boundary, with its argument byte, or none where DATA ends before it (R170, R171). -/
  | reset (arg : Option Byte)
  /-- `SETADDR` at a command boundary, with the requested address, or none where DATA ends before it (R171 to R174). -/
  | setaddr (a : Option Byte)
  /-- `RETRY` at a command boundary (R175). -/
  | retry
  /-- `OPAQUE`: any other head opcode (R176). -/
  | opaqueCmd (op : Byte)
  /-- `RST` (R330). -/
  | rst
deriving DecidableEq, Repr

/-- The eight operation codes of the caller bus (R102). -/
inductive CallerOp where
  | nop
  | getNext
  | consume
  | pushReport
  | pushData
  | beginOp
  | endOp
  | unknownCmd
deriving DecidableEq, Repr

/-- The class of a byte the receive port accepts (R85). -/
inductive RxClass where
  | sync
  | mark
  | data
deriving DecidableEq, Repr

/-- The class of a head opcode (R90). -/
inductive HeadClass where
  | reset
  | setaddr
  | retry
  | opaqueCmd
deriving DecidableEq, Repr

/-- The four agents that act on the core (R13). -/
inductive Agent where
  | byteSource
  | caller
  | byteSink
  | resetInput
deriving DecidableEq, Repr

/-- What an agent presents at its port (R100, R101, R104). -/
inductive Offer where
  /-- The caller holds `op_valid` with this word. -/
  | callerOp (w : CallerWord)
  /-- The byte source holds `rx_valid` with this byte. -/
  | rxByte (b : Byte)
  /-- The byte sink holds `tx_ready`. -/
  | txReady
  /-- `RST` is asserted. -/
  | rst
deriving DecidableEq, Repr

/-- The transfers one clock of a cycle-level implementation may see together (R106). -/
structure Cycle where
  rst : Bool
  callerOp : Option CallerWord
  rxByte : Option Byte
  txReady : Bool
deriving DecidableEq, Repr

/-- The encoded form of a row of the table: a transfer at a port, or the bytes of DATA from a command boundary on
(column "format" of spec/opcode_table.json). -/
inductive Encoded where
  | port (o : Offer)
  | head (bytes : List Byte)
deriving DecidableEq, Repr

/-- Why bytes are no instruction. -/
inductive DecodeError where
  /-- There is no byte at the command boundary: DATA is exhausted. Raised by `decodeHead`; safe. -/
  | emptyWindow
  /-- The words of a row have at most 11 bits (R102). Raised by `decodeBytes`; safe. -/
  | wordTooWide
  /-- `TX_EMIT` and `RST` have no bits: no word stands for them. Raised by `decodeBytes`; safe. -/
  | noBits
deriving DecidableEq, Repr

end Sys2Proof
end

