-- ==== Sys2Proof/WellFormed.lean ====
section
/-! DEFINITION. Well-formed configurations (00_scope.md R8) and well-formed instructions (30_encoding.md R85, R90). -/

namespace Sys2Proof

namespace Config

/-- R8 (1): the two markers differ. -/
def markersDiffer (c : Config) : Bool := c.sync != c.esc

/-- R8 (2): neither decremented marker is a marker. -/
def decrementsSafe (c : Config) : Bool :=
  c.sync - 1 != c.sync && c.sync - 1 != c.esc && (c.esc - 1 != c.sync && c.esc - 1 != c.esc)

/-- An assignable device address (R8, R61). -/
def addrInRange (c : Config) (a : Byte) : Bool := decide (c.addrMin ≤ a) && decide (a ≤ c.addrMax)

/-- R8 (3): the fixed addresses and the assignable range. -/
def addressesOk (c : Config) : Bool :=
  c.broadcast != c.hostAddr && !c.addrInRange c.broadcast && !c.addrInRange c.hostAddr &&
    (decide ((1 : Byte) ≤ c.addrMin) && decide (c.addrMin ≤ c.addrMax) && decide (c.addrMax ≤ (0xFE : Byte)))

/-- R8 (4): the core's opcodes are pairwise distinct. -/
def opcodesDistinct (c : Config) : Bool :=
  c.cmdReset != c.cmdSetaddr && c.cmdReset != c.cmdRetry && c.cmdSetaddr != c.cmdRetry

/-- R8 (5): the ranges of the capacities. -/
def capacitiesOk (c : Config) : Bool :=
  decide (3 ≤ c.rxCap) && decide (c.rxCap ≤ 256) && (decide (4 ≤ c.txCap) && decide (c.txCap ≤ 256))

/-- R8 (6): the derived capacities. -/
def derivedOk (c : Config) : Bool :=
  decide (c.qMax = c.txCap - 3) && decide (c.retCap = 1 + 2 * c.txCap)

/-- R8 (7): the four status codes and the four report codes are pairwise distinct. -/
def codesDistinct (c : Config) : Bool :=
  decide ([c.statusNormal, c.statusUnknown, c.statusSumError, c.statusOverflow].Nodup) &&
    decide ([c.reportOk, c.reportParamNoresp, c.reportParamIgnored, c.reportBusy].Nodup)

/-- A configuration is well-formed only if all seven hold (R8). -/
def wf (c : Config) : Bool :=
  c.markersDiffer && c.decrementsSafe && c.addressesOk && c.opcodesDistinct && c.capacitiesOk && c.derivedOk &&
    c.codesDistinct

end Config

/-- The byte classes are by equality and disjoint: `RX_DATA` is any byte that is neither marker (R85), `OPAQUE` any head
that is none of the core's three opcodes (R90). Every other term is well-formed: `CONSUME` is defined for every `n`
(R162, R163), a push takes any byte (R94), a missing operand is a defined form (R171). -/
def Instr.wf (c : Config) : Instr → Bool
  | .rxData b => b != c.sync && b != c.esc
  | .opaqueCmd op => op != c.cmdReset && op != c.cmdSetaddr && op != c.cmdRetry
  | .nop | .getNext | .consume _ | .pushReport _ | .pushData _ | .beginOp | .endOp | .unknownCmd => true
  | .rxSync | .rxMark | .txEmit | .reset _ | .setaddr _ | .retry | .rst => true

end Sys2Proof
end

