-- ==== Sys2Proof/Decode.lean ====
section
/-! DEFINITION. Decoding of port transfers and of command heads (30_encoding.md R85, R90, R91, R100 to R104), and after it
the encoder. Decoding is total and rejects by name. -/

namespace Sys2Proof

/-! ### The caller bus (R102) -/

/-- The column "op" of R102. -/
def CallerOp.code : CallerOp → BitVec 3
  | .nop => 0
  | .getNext => 1
  | .consume => 2
  | .pushReport => 3
  | .pushData => 4
  | .beginOp => 5
  | .endOp => 6
  | .unknownCmd => 7

/-- `op[2:0]` of a caller word (R102). All eight codes are assigned, so the last case is code 7. -/
def callerOpOf (w : CallerWord) : CallerOp :=
  match (w.extractLsb' 8 3).toNat with
  | 0 => .nop
  | 1 => .getNext
  | 2 => .consume
  | 3 => .pushReport
  | 4 => .pushData
  | 5 => .beginOp
  | 6 => .endOp
  | _ => .unknownCmd

/-- `arg[7:0]` of a caller word (R102). -/
def callerArg (w : CallerWord) : Byte := w.extractLsb' 0 8

/-- The caller operation of a word, with its operand where R102 gives one; elsewhere `arg` is ignored. -/
def decodeCaller (w : CallerWord) : Instr :=
  match callerOpOf w with
  | .nop => .nop
  | .getNext => .getNext
  | .consume => .consume (callerArg w)
  | .pushReport => .pushReport (callerArg w)
  | .pushData => .pushData (callerArg w)
  | .beginOp => .beginOp
  | .endOp => .endOp
  | .unknownCmd => .unknownCmd

/-! ### The receive port (R85) -/

/-- Every byte falls in exactly one class, by equality with the configuration (R85). -/
def rxClassOf (c : Config) (b : Byte) : RxClass :=
  if b = c.sync then .sync else if b = c.esc then .mark else .data

/-- The receive event of a byte (R85). -/
def decodeRx (c : Config) (b : Byte) : Instr :=
  match rxClassOf c b with
  | .sync => .rxSync
  | .mark => .rxMark
  | .data => .rxData b

/-- The event of an offer: every offer is one (R100 to R104). -/
def decodeOffer (c : Config) : Offer → Instr
  | .callerOp w => decodeCaller w
  | .rxByte b => decodeRx c b
  | .txReady => .txEmit
  | .rst => .rst

/-! ### Command heads (R90, R91) -/

/-- The head opcode is classified by equality only, with no mask (R90). -/
def headClassOf (c : Config) (op : Byte) : HeadClass :=
  if op = c.cmdReset then .reset
  else if op = c.cmdSetaddr then .setaddr
  else if op = c.cmdRetry then .retry
  else .opaqueCmd

/-- The command at a boundary, given the bytes of DATA from there to its end. The operand is the byte after the opcode,
taken unmodified (R91); none where DATA ends before it (R171). -/
def decodeHead (c : Config) : List Byte → Except DecodeError Instr
  | [] => .error .emptyWindow
  | op :: rest =>
    match headClassOf c op with
    | .reset => .ok (.reset rest.head?)
    | .setaddr => .ok (.setaddr rest.head?)
    | .retry => .ok .retry
    | .opaqueCmd => .ok (.opaqueCmd op)

/-- The decoder: a port transfer is always an event; the bytes at a command boundary are a command unless there are
none. -/
def decode (c : Config) : Encoded → Except DecodeError Instr
  | .port o => .ok (decodeOffer c o)
  | .head bytes => decodeHead c bytes

/-! ### Words of spec/opcode_table.json

The table has two formats of one byte, receive bytes and command heads, with one number for both. A byte that is one of
the core's three opcodes is read as that command head, with a zero operand byte behind it; any other byte as a receive
byte (log entry 10). -/

/-- Whether a lone byte of the table is read as a command head (log entry 10). -/
def isCoreOpcode (c : Config) (b : Byte) : Bool := b == c.cmdReset || b == c.cmdSetaddr || b == c.cmdRetry

/-- The bytes of a number, least significant first, as many as `n`. -/
def bytesOfNat : Nat → Nat → List Byte
  | 0, _ => []
  | n + 1, w => BitVec.ofNat 8 w :: bytesOfNat n (w / 256)

/-- The caller word held in two bytes, the second its high byte; none above 11 bits (R102). -/
def callerWordOfBytes (lo hi : Byte) : Option CallerWord :=
  if hi.toNat < 8 then some (BitVec.ofNat 11 (hi.toNat * 256 + lo.toNat)) else none

/-- The form in which the bytes of a row's word are presented to the core. -/
def encodedOfBytes (c : Config) : List Byte → Except DecodeError Encoded
  | [] => .error .noBits
  | [b] => if isCoreOpcode c b then .ok (.head [b, 0]) else .ok (.port (.rxByte b))
  | [lo, hi] =>
    match callerWordOfBytes lo hi with
    | some w => .ok (.port (.callerOp w))
    | none => .error .wordTooWide
  | _ :: _ :: _ :: _ => .error .wordTooWide

/-- The decoder on any bytes. -/
def decodeBytes (c : Config) (bytes : List Byte) : Except DecodeError Instr :=
  match encodedOfBytes c bytes with
  | .ok e => decode c e
  | .error r => .error r

/-- The bytes of a table word of `nbits` bits, rounded up to whole bytes. -/
def tableBytes (nbits w : Nat) : List Byte := bytesOfNat ((nbits + 7) / 8) w

/-- The instruction the decoder reads from a word of spec/opcode_table.json, at the default configuration. -/
def decodeTableWord (nbits w : Nat) : Option Instr :=
  match decodeBytes Config.default (tableBytes nbits w) with
  | .ok i => some i
  | .error _ => none

/-! ### The encoder -/

/-- The caller word `op[2:0] arg[7:0]` (R102). -/
def callerWord (op : CallerOp) (arg : Byte) : CallerWord := op.code ++ arg

/-- The encoded form of an instruction: an ignored `arg` is 0, a missing operand has no byte. -/
def encode (c : Config) : Instr → Encoded
  | .nop => .port (.callerOp (callerWord .nop 0))
  | .getNext => .port (.callerOp (callerWord .getNext 0))
  | .consume n => .port (.callerOp (callerWord .consume n))
  | .pushReport r => .port (.callerOp (callerWord .pushReport r))
  | .pushData b => .port (.callerOp (callerWord .pushData b))
  | .beginOp => .port (.callerOp (callerWord .beginOp 0))
  | .endOp => .port (.callerOp (callerWord .endOp 0))
  | .unknownCmd => .port (.callerOp (callerWord .unknownCmd 0))
  | .rxSync => .port (.rxByte c.sync)
  | .rxMark => .port (.rxByte c.esc)
  | .rxData b => .port (.rxByte b)
  | .txEmit => .port .txReady
  | .reset arg => .head (c.cmdReset :: arg.toList)
  | .setaddr a => .head (c.cmdSetaddr :: a.toList)
  | .retry => .head [c.cmdRetry]
  | .opaqueCmd op => .head [op]
  | .rst => .port .rst

end Sys2Proof
end

