-- ==== Sys2Proof/Machine/State.lean ====
section
/-! DEFINITION. The state of JVSCORE: one field for each register of 10_state.md R22 to R42, then the model's own fields.
Plain data. -/

namespace Sys2Proof.Machine

/-- A storage space as the bytes written to it since the last reset: addresses strictly rising, and an unlisted address
has no value of its own. -/
abbrev Memory := List Host.Cell

/-- `respond(r)` of 00_scope.md R10: the answer of a caller-bus transfer (R101, R103). -/
inductive Response where
  /-- `resp_kind = NONE`, `resp_len = 0`. -/
  | none
  /-- `resp_kind = CMD`, `resp_len = len`. -/
  | cmd (len : Nat)
deriving DecidableEq, Repr

/-- The conditions of 60_exceptions.md R300 and the other annotations the rules raise (00_scope.md R10). None is a
trap. -/
inductive Condition where
  /-- R301: computed sum, received checksum. -/
  | sumMismatch (computed received : Byte)
  /-- R302: the frame's ADDR. -/
  | addrMismatch (a : Byte)
  /-- R303: the frame's ADDR. -/
  | lenZero (a : Byte)
  /-- R304: the frame's ADDR and LEN. -/
  | rxOverflow (a : Byte) (len : Nat)
  /-- R120: the accepted frame's ADDR and LEN. -/
  | frameAccepted (a : Byte) (len : Nat)
  /-- R305: the dropped byte. -/
  | txOverflow (v : Byte)
  /-- R171: the opcode and the bytes of the window. -/
  | malformed (op : Byte) (rem : Nat)
  /-- R164: the opcode. -/
  | unknownOpcode (op : Byte)
  /-- R163: the declared length and the bytes of the window. -/
  | badConsume (n : Byte) (rem : Nat)
  /-- R229. -/
  | retryEmpty
  /-- R308: the operation that had no meaning in its state. -/
  | callerProtocol (op : CallerOp)
  /-- R168. -/
  | responseSuppressed
  /-- R220: the status and `tx_report_size`. -/
  | responseFlushed (status : Byte) (q : Nat)
  /-- R228: the retained length. -/
  | retransmit (len : Nat)
deriving DecidableEq, Repr

/-- A call of the sense or LED driver (44_lifecycle.md R261, R264). -/
inductive DriverCall where
  | senseBegin
  | ledBegin
  | senseSet (ready : Bool)
  | ledSet (ready : Bool)
deriving DecidableEq, Repr

/-- One entry of the event trace (00_scope.md R10, 60_exceptions.md R308). -/
inductive Note where
  | raised (c : Condition)
  | answered (r : Response)
  | emitted (b : Byte)
  | driver (d : DriverCall)
deriving DecidableEq, Repr

/-- The state `S` (R20) and the model's own fields. -/
structure State where
  /-- R22. -/
  enabled : Bool
  /-- R23. -/
  rxBuf : Memory
  /-- R24. -/
  rxSize : Nat
  /-- R25. -/
  rxReceiving : Bool
  /-- R26. -/
  rxEscaping : Bool
  /-- R27. -/
  rxAvailable : Bool
  /-- R28. -/
  rxOvfPending : Bool
  /-- R29. -/
  devAddr : Byte
  /-- R30. -/
  senseReady : Bool
  /-- R30. -/
  ledReady : Bool
  /-- R31. -/
  rxReadPtr : Nat
  /-- R32. -/
  cmdOutstanding : Bool
  /-- R33. -/
  cycAbandon : Bool
  /-- R34. -/
  cycUnknown : Bool
  /-- R35. -/
  cycResetSeen : Bool
  /-- R36. -/
  txBuf : Memory
  /-- R37. -/
  txReportSize : Nat
  /-- R38. -/
  txOvf : Bool
  /-- R39. -/
  retBuf : Memory
  /-- R39. -/
  retLen : Nat
  /-- R40. -/
  retValid : Bool
  /-- R41. -/
  txEmitPtr : Nat
  /-- R42. -/
  txEmitting : Bool
  /-- The model's own: the configuration the model takes as argument (R7, R21); no event writes it (log entry 1). -/
  cfg : Config
  /-- The model's own: how many resets have drawn the unspecified buffer bytes (R49; log entries 3 and 4). -/
  draws : Nat
  /-- The model's own: what the agents present, in the order they move (R13; log entry 5). -/
  offers : List Offer
  /-- The model's own: the event trace of R10, newest first (log entry 7). -/
  trace : List Note
deriving DecidableEq, Repr

/-- Why the model stops a step with a fault. -/
inductive Fault where
  /-- A rule's access to index `i` of a space that has no such index (R60, R65). Raised by the operations that store a
  received byte, walk a frame, flush a response, emit a byte or read an unknown opcode, and only in states that break
  R48. Safe: the model stops where the spec gives the access no meaning. -/
  | noSuchIndex (sp : Space) (i : Nat)
deriving DecidableEq, Repr

/-- Why the model refuses. -/
inductive Refusal where
  /-- An instruction without a meaning in this model. Raised by no arm of `exec`; safe. -/
  | notModelled (mnemonic : String)
  /-- The configuration breaks R8: "a model refuses any other configuration". Raised by `step`; safe. -/
  | illFormedConfig
  /-- A `CMD_BYTE(i)` read that R44 gives no value: "a model refuses it". Raised by `cmdByte`; safe. -/
  | cmdByteOutsideWindow (i : Nat)
deriving DecidableEq, Repr

/-- The reset state of 10_state.md R49, at the default configuration, with nothing offered and nothing traced. -/
def State.reset : State where
  enabled := false
  rxBuf := []
  rxSize := 0
  rxReceiving := false
  rxEscaping := false
  rxAvailable := false
  rxOvfPending := false
  devAddr := 0
  senseReady := false
  ledReady := false
  rxReadPtr := 0
  cmdOutstanding := false
  cycAbandon := false
  cycUnknown := false
  cycResetSeen := false
  txBuf := []
  txReportSize := 1
  txOvf := false
  retBuf := []
  retLen := 0
  retValid := false
  txEmitPtr := 0
  txEmitting := false
  cfg := Config.default
  draws := 0
  offers := []
  trace := []

end Sys2Proof.Machine
end

