-- ==== Sys2Proof/Machine/Wire.lean ====
section
/-! DEFINITION. The wire format: checksum, escape code, and the images of request and response frames
(30_encoding.md R80 to R89, R111; 43_transmitter.md R221 to R225). -/

namespace Sys2Proof.Machine

/-- `sum8(list)`: the sum of the bytes mod 256, 0 for the empty list (R9). -/
def sum8 : List Byte → Byte
  | [] => 0
  | b :: bs => b + sum8 bs

/-- The escape encoder of one byte (R86). -/
def escape (c : Config) (v : Byte) : List Byte :=
  if v = c.sync ∨ v = c.esc then [c.esc, v - 1] else [v]

/-- The escaped image of a list of bytes, every byte passed through the encoder (R88, R224). -/
def escapeAll (c : Config) : List Byte → List Byte
  | [] => []
  | v :: vs => escape c v ++ escapeAll c vs

/-- `Wire(F) = [SYNC] ++ esc(F[0]) ++ ...`: the leading SYNC is not escaped (R224, R225). -/
def wireImage (c : Config) (image : List Byte) : List Byte := c.sync :: escapeAll c image

/-- The stored value of a byte received mid-frame: incremented mod 256 after an escape marker, else as it is
(R87, R124). -/
def unescaped (escaping : Bool) (b : Byte) : Byte := if escaping then b + 1 else b

/-- The unescaped image `[ADDR, LEN] ++ DATA ++ [CHECKSUM]` of a frame, `LEN = len(DATA) + 1` (R80, R82). -/
def frameImage (addr : Byte) (data : List Byte) : List Byte :=
  let head := addr :: BitVec.ofNat 8 (data.length + 1) :: data
  head ++ [sum8 head]

/-- The wire bytes of `FRAME a: d0 d1 ...` (R111). -/
def frameWire (c : Config) (addr : Byte) (data : List Byte) : List Byte := wireImage c (frameImage addr data)

end Sys2Proof.Machine
end

