-- ==== Sys2Proof/Machine/Ops.lean ====
section
/-! DEFINITION. The shared operations over buffers and registers: one-byte accesses (20_memory.md R60, R65), raising a
condition (60_exceptions.md R300), the answer of a caller operation (30_encoding.md R103), driving sense and LED
(44_lifecycle.md R264), and reset (10_state.md R49). -/

namespace Sys2Proof.Machine

/-- The result of an event. -/
abbrev Result := Host.Outcome State Fault Refusal

/-- Go on from the next state, or keep the stop. -/
def andThen (r : Result) (f : State → Result) : Result :=
  match r with
  | .next s => f s
  | .fault e => .fault e
  | .refused e => .refused e

/-- The next state, if the event has one. -/
def nextState? (r : Result) : Option State :=
  match r with
  | .next s => some s
  | .fault _ => none
  | .refused _ => none

/-! ### Buffers -/

/-- The byte written at an address, none where nothing has been written. -/
def Memory.read : Memory → Nat → Option Byte
  | [], _ => none
  | (j, w) :: m, i => if i = j then some w else Memory.read m i

/-- `MemWrite(B, i, 1, v)` (R10, R65), keeping the addresses strictly rising. -/
def Memory.write : Memory → Nat → Byte → Memory
  | [], i, v => [(i, v)]
  | (j, w) :: m, i, v =>
    if i < j then (i, v) :: (j, w) :: m
    else if i = j then (i, v) :: m
    else (j, w) :: Memory.write m i v

/-- Successive bytes written from an address on. -/
def Memory.writeList (m : Memory) (i : Nat) : List Byte → Memory
  | [] => m
  | v :: vs => Memory.writeList (m.write i v) (i + 1) vs

/-- The canonical form: addresses strictly rising. An unlisted address reads as no value, so no entry equals it. -/
def Memory.wf : Memory → Bool
  | [] => true
  | [_] => true
  | (i, _) :: (j, w) :: m => decide (i < j) && Memory.wf ((j, w) :: m)

/-- Every listed address lies in the space. -/
def Memory.within (cap : Nat) (m : Memory) : Bool := m.all fun cell => decide (cell.1 < cap)

/-- The contents of a storage space (R60). -/
def State.mem (s : State) : Space → Memory
  | .rx => s.rxBuf
  | .tx => s.txBuf
  | .ret => s.retBuf

/-- `MemRead(B, i, 1)` (R10): the byte written there, or the free value of an unwritten byte (R49, R51; log entry 3). -/
def State.byte (s : State) (sp : Space) (i : Nat) : Byte :=
  match (s.mem sp).read i with
  | some v => v
  | none => Config.unspecifiedByte s.draws sp i

/-- The bytes at `n` successive indexes from `i` on. -/
def State.bytes (s : State) (sp : Space) (i : Nat) : Nat → List Byte
  | 0 => []
  | n + 1 => s.byte sp i :: s.bytes sp (i + 1) n

/-- `MemWrite(B, i, 1, v)` on the state. -/
def State.store (s : State) (sp : Space) (i : Nat) (v : Byte) : State :=
  match sp with
  | .rx => { s with rxBuf := s.rxBuf.write i v }
  | .tx => { s with txBuf := s.txBuf.write i v }
  | .ret => { s with retBuf := s.retBuf.write i v }

/-- Whether a space has the index (R60). -/
def State.hasIndex (s : State) (sp : Space) (i : Nat) : Bool := decide (i < s.cfg.capacity sp)

/-! ### The trace -/

/-- Record an entry in the event trace (R10). -/
def State.note (s : State) (n : Note) : State := { s with trace := n :: s.trace }

/-- `raise Cond(info)`: the one operation by which every rule reports a condition. JVSCORE has no trap: it "causes no
control transfer and no write beyond those the rule states" (R10, R300, R309), so only the trace changes. -/
def State.raise (s : State) (c : Condition) : State := s.note (.raised c)

/-- `respond(r)`: the answer of the caller-bus transfer (R10, R103). -/
def State.answer (s : State) (r : Response) : State := s.note (.answered r)

/-- `emit(b)`: the byte presented on the transmit port (R10). -/
def State.emit (s : State) (b : Byte) : State := s.note (.emitted b)

/-- `resp_kind` of the caller bus (R101). -/
def Response.kind : Response → BitVec 1
  | .none => 0
  | .cmd _ => 1

/-- `resp_len[8:0]` of the caller bus (R101, R103). -/
def Response.busLen : Response → BitVec 9
  | .none => 0
  | .cmd len => BitVec.ofNat 9 len

/-! ### Sense and LED (R264) -/

/-- The driver calls `set(v)` of an event that takes `s` to `t`: one for each register whose value the event changes, and
no other (R264; log entry 12). -/
def State.readyCalls (s t : State) : List Note :=
  (if t.ledReady = s.ledReady then [] else [.driver (.ledSet t.ledReady)]) ++
    (if t.senseReady = s.senseReady then [] else [.driver (.senseSet t.senseReady)])

/-- Record the driver calls of the event that takes `s` to `t`: all its writes take effect together at its end, so the
two ends are compared (R10, R161, R264). -/
def State.noteReady (s t : State) : State := { t with trace := s.readyCalls t ++ t.trace }

/-- Write `sense_ready` and `led_ready` together (R264). -/
def State.driveReady (s : State) (v : Bool) : State := { s with senseReady := v, ledReady := v }

/-! ### Reset (R49, R330) -/

/-- `S <- ResetState`: every register of R20 at its reset value, the buffers unspecified again by a new draw. The
agents' offers and the configuration are not the core's; the trace goes on, with the driver calls of the change
(R264). -/
def State.resetCore (s : State) : State :=
  { State.reset with
    cfg := s.cfg
    draws := s.draws + 1
    offers := s.offers
    trace := s.readyCalls State.reset ++ s.trace }

end Sys2Proof.Machine
end

