-- ==== Sys2Proof/Machine/Operands.lean ====
section
/-! DEFINITION. The operand forms: the DATA window of the frame being walked, the head and its operand byte
(30_encoding.md R90, R91; 20_memory.md R66), and the caller's read port CMD_BYTE (10_state.md R44). -/

namespace Sys2Proof.Machine

/-- `data_end`: the index of the checksum byte, the exclusive end of DATA (R66). -/
def State.dataEnd (s : State) : Nat := s.rxSize - 1

/-- `rem`: the bytes of DATA from the cursor on (R161, R162). -/
def State.windowLen (s : State) : Nat := s.dataEnd - s.rxReadPtr

/-- The bytes of DATA from the cursor on (R44, R103). -/
def State.window (s : State) : List Byte := s.bytes .rx s.rxReadPtr s.windowLen

/-- The opcode at the cursor (R90). -/
def State.headOpcode (s : State) : Byte := s.byte .rx s.rxReadPtr

/-- The operand of a two-byte command at the cursor: the byte after the opcode, none if it would lie at or beyond
`data_end` (R91, R171). -/
def State.headOperand (s : State) : Option Byte :=
  if s.windowLen < 2 then none else some (s.byte .rx (s.rxReadPtr + 1))

/-- `CMD_BYTE(i)`: defined while a command is handed out and for an index of its window; any other read is refused
(R44, R74; log entry 20). -/
def cmdByte (s : State) (i : Nat) : Except Refusal Byte :=
  if s.rxAvailable && s.cmdOutstanding && decide (i < s.windowLen) && s.hasIndex .rx (s.rxReadPtr + i) then
    .ok (s.byte .rx (s.rxReadPtr + i))
  else .error (.cmdByteOutsideWindow i)

end Sys2Proof.Machine
end

