-- ==== Sys2Proof/Machine/Flags.lean ====
section
/-! DEFINITION. The conditions computed from the state: the address filter (40_receiver.md R129), the status of a response
(43_transmitter.md R222), suppression (41_demux.md R168), the outputs (10_state.md R43), and when an event is held
(R121, R165, R240). -/

namespace Sys2Proof.Machine

/-- `accept(a)`: broadcast, or the address of an assigned device (R129). -/
def State.accepts (s : State) (a : Byte) : Bool :=
  a == s.cfg.broadcast || (s.devAddr != 0 && a == s.devAddr)

/-- `LEN` of the frame being received or walked, zero-extended (R81). -/
def State.rxLen (s : State) : Nat := (s.byte .rx 1).toNat

/-- `status(W)` (R222). -/
def State.status (s : State) : Byte :=
  if s.cycUnknown then s.cfg.statusUnknown
  else if s.txOvf || s.rxOvfPending then s.cfg.statusOverflow
  else s.cfg.statusNormal

/-- The status of a retry with nothing retained (R229). -/
def emptyRetryStatus (c : Config) : Byte :=
  match c.retryEmptyStatus with
  | .statusUnknown => c.statusUnknown
  | .statusOverflow => c.statusOverflow

/-- A frame whose only effect was a reset sends nothing (R168). -/
def State.suppresses (s : State) : Bool :=
  s.cycResetSeen && decide (s.txReportSize = 1) && !s.cycUnknown && !s.txOvf

/-! ### Outputs (R43) -/

/-- The receive port accepts a byte. -/
def State.rxInReady (s : State) : Bool := !s.enabled || !s.rxAvailable

/-- A validated frame awaits the caller: the only notification (R306). -/
def State.cmdPending (s : State) : Bool := s.enabled && s.rxAvailable

/-- A byte is offered to the sink. -/
def State.txValid (s : State) : Bool := s.txEmitting

/-- The transmit line is driven. -/
def State.txDe (s : State) : Bool := s.txEmitting

/-- FREE VALUE: `tx_data` while `tx_valid` is false (93_implementation_defined.md U9; log entry 14). -/
opaque idleTxData : State → Byte

/-- `tx_data`. -/
def State.txData (s : State) : Byte := if s.txValid then s.byte .ret s.txEmitPtr else idleTxData s

/-- The output `sense`. -/
def State.sense (s : State) : Bool := s.senseReady

/-- The output `led`. -/
def State.led (s : State) : Bool := s.ledReady

/-! ### Holds -/

/-- The receive port holds the byte offered (R121). -/
def State.rxHeld (s : State) : Bool := s.enabled && s.rxAvailable

/-- `GET_NEXT` holds: a response is still being emitted and this `GET_NEXT` might rewrite the retry latch (R165). -/
def State.getNextHeld (s : State) : Bool := s.enabled && s.rxAvailable && !s.cmdOutstanding && s.txEmitting

/-- The event is not enabled in the current state (R10). The other caller operations and `RST` are never held
(R101, R260, R263, R330). A command head is no event of its own and is never held. -/
def held (i : Instr) (s : State) : Bool :=
  match i with
  | .rxSync | .rxMark | .rxData _ => s.rxHeld
  | .getNext => s.getNextHeld
  | .txEmit => !s.txEmitting
  | .nop | .consume _ | .pushReport _ | .pushData _ | .beginOp | .endOp | .unknownCmd | .rst => false
  | .reset _ | .setaddr _ | .retry | .opaqueCmd _ => false

/-- `op_ready`: false exactly when the operation offered is held (R101). -/
def State.opReady (s : State) (w : CallerWord) : Bool := !held (decodeCaller w) s

end Sys2Proof.Machine
end

