-- ==== Sys2Proof/Machine/Aggregator.lean ====
section
/-! DEFINITION. The Report Aggregator: `append`, PUSH_REPORT and PUSH_DATA (42_aggregator.md R200 to R205). -/

namespace Sys2Proof.Machine

/-- `append(W, v)`: the single write path into the pending TxFrame; a byte that does not fit is dropped and recorded
(R200). -/
def State.append (s : State) (v : Byte) : State :=
  if s.txReportSize < s.cfg.qMax then
    { s.store .tx (2 + s.txReportSize) v with txReportSize := s.txReportSize + 1 }
  else { s with txOvf := true }.raise (.txOverflow v)

/-- `PUSH_REPORT(c)` (R201): `REPORT_PARAM_NORESP` also abandons the rest of the frame (R203); outside a response cycle
the push is dropped (R204). -/
def execPushReport (c : Byte) (s : State) : Result :=
  if s.enabled && s.rxAvailable then
    let t := s.append c
    .next ({ t with cycAbandon := t.cycAbandon || c == s.cfg.reportParamNoresp }.answer .none)
  else .next ((s.raise (.callerProtocol .pushReport)).answer .none)

/-- `PUSH_DATA(b)` (R202, R204). -/
def execPushData (b : Byte) (s : State) : Result :=
  if s.enabled && s.rxAvailable then .next ((s.append b).answer .none)
  else .next ((s.raise (.callerProtocol .pushData)).answer .none)

end Sys2Proof.Machine
end

