-- ==== Sys2Proof/Machine/Transmitter.lean ====
section
/-! DEFINITION. The Frame Transmitter: flush, retry latch, retransmission and TX_EMIT (43_transmitter.md R220 to R241), and
the end of the response cycle that calls it (41_demux.md R168, R169). -/

namespace Sys2Proof.Machine

/-- `clear_cycle(W)` (R169). -/
def State.clearCycle (s : State) : State :=
  { s with txReportSize := 1, txOvf := false, cycUnknown := false, cycAbandon := false, cycResetSeen := false }

/-- `latch(W, F)`: the wire image is retained and its emission starts (R226, R227). -/
def State.latch (s : State) (image : List Byte) : State :=
  { s with
    retBuf := s.retBuf.writeList 0 (wireImage s.cfg image)
    retLen := (wireImage s.cfg image).length
    retValid := true
    txEmitPtr := 0
    txEmitting := true }

/-- ADDR, LEN and status written into the pending TxFrame, then the checksum over the unescaped bytes
(R221, R223). -/
def State.assemble (s : State) (st : Byte) : State :=
  let q := s.txReportSize
  let t := ((s.store .tx 0 s.cfg.hostAddr).store .tx 1 (BitVec.ofNat 8 (q + 1))).store .tx 2 st
  t.store .tx (q + 2) (sum8 (t.bytes .tx 0 (q + 2)))

/-- The unescaped image `F = tx_buf[0 .. q+2]` (R221). -/
def State.txImage (s : State) : List Byte := s.bytes .tx 0 (s.txReportSize + 3)

/-- A pending receive overflow is consumed only by a response that carries `STATUS_OVERFLOW` (R220, R222). -/
def State.settleOverflow (s : State) (st : Byte) : State :=
  { s with rxOvfPending := s.rxOvfPending && st != s.cfg.statusOverflow }

/-- The state after a flush (R220). -/
def State.flushed (s : State) : State :=
  let t := (s.settleOverflow s.status).assemble s.status
  ((t.latch t.txImage).clearCycle).raise (.responseFlushed s.status s.txReportSize)

/-- `flush(W)` (R220): the checksum slot must lie in the buffer (R67). -/
def flush (s : State) : Result :=
  if s.hasIndex .tx (s.txReportSize + 2) then .next s.flushed
  else .fault (.noSuchIndex .tx (s.txReportSize + 2))

/-- `end_cycle(W)`: the frame is released; a frame whose only effect was a reset sends nothing, any other is flushed
(R168). -/
def endCycle (s : State) : Result :=
  let t := { s with rxAvailable := false, cmdOutstanding := false }
  if s.suppresses then .next (t.clearCycle.raise .responseSuppressed) else flush t

/-- The status-only image of a retry with nothing retained (R229). -/
def emptyRetryImage (c : Config) : List Byte :=
  let head := [c.hostAddr, 0x02, emptyRetryStatus c]
  head ++ [sum8 head]

/-- `retransmit(W)`: the retained bytes are offered again unchanged (R228), or a status-only response is built and
latched (R229). -/
def State.retransmit (s : State) : State :=
  if s.retValid then { s with txEmitPtr := 0, txEmitting := true }.raise (.retransmit s.retLen)
  else (s.latch (emptyRetryImage s.cfg)).raise .retryEmpty

/-- `TX_EMIT` (R240): emits `ret_buf[tx_emit_ptr]`; the transfer of the last byte ends the emission (R241). Held while
nothing is being emitted. -/
def execTxEmit (s : State) : Result :=
  if s.txEmitting then
    if s.hasIndex .ret s.txEmitPtr then
      .next ({ s with txEmitPtr := s.txEmitPtr + 1, txEmitting := decide (s.txEmitPtr + 1 ≠ s.retLen) }.emit
        (s.byte .ret s.txEmitPtr))
    else .fault (.noSuchIndex .ret s.txEmitPtr)
  else .next s

end Sys2Proof.Machine
end

