-- ==== Sys2Proof/Machine/Demux.lean ====
section
/-! DEFINITION. The command demultiplexer: the four command heads, then GET_NEXT, which walks the frame and runs them, and
CONSUME and UNKNOWN_CMD (41_demux.md R160 to R179). -/

namespace Sys2Proof.Machine

/-- A core command the core cannot make sense of: the frame is abandoned with `STATUS_UNKNOWN`, nothing is consumed
(R171). -/
def State.malformed (s : State) (op : Byte) : State :=
  { s with cycUnknown := true, cycAbandon := true }.raise (.malformed op s.windowLen)

/-- The cursor moves past a command of `n` bytes (R162, R170, R172, R174). -/
def State.advance (s : State) (n : Nat) : State := { s with rxReadPtr := s.rxReadPtr + n }

/-- The writes of `RESET` at the head: with the right argument the address is cleared and sense and LED go to not-ready,
and no report is pushed (R170); with a wrong or missing one it is malformed (R171). -/
def State.resetHead (s : State) (arg : Option Byte) : State :=
  if arg = some s.cfg.resetArg then ({ s with devAddr := 0, cycResetSeen := true }.driveReady false).advance 2
  else s.malformed s.cfg.cmdReset

/-- `RESET` at the head, with its driver calls where it is the whole event (log entry 8). -/
def execReset (arg : Option Byte) (s : State) : Result := .next (s.noteReady (s.resetHead arg))

/-- A requested address is accepted iff the device is unassigned and the address is assignable (R172, R173). -/
def State.addrAccepted (s : State) (a : Byte) : Bool := s.devAddr == 0 && s.cfg.addrInRange a

/-- The writes of `SETADDR` at the head: accepted, the address is held, sense and LED go to ready and `REPORT_OK` is
queued (R172); else `REPORT_PARAM_IGNORED` is queued (R173, R174); without its operand it is malformed (R171). -/
def State.setaddrHead (s : State) (a : Option Byte) : State :=
  match a with
  | none => s.malformed s.cfg.cmdSetaddr
  | some a =>
    if s.addrAccepted a then (({ s with devAddr := a }.driveReady true).append s.cfg.reportOk).advance 2
    else (s.append s.cfg.reportParamIgnored).advance 2

/-- `SETADDR` at the head, with its driver calls where it is the whole event (log entry 8). -/
def execSetaddr (a : Option Byte) (s : State) : Result := .next (s.noteReady (s.setaddrHead a))

/-- `RETRY` at the head: the cycle ends, its reports and flags are discarded, and the retained response is sent again;
`GET_NEXT` answers NONE (R175). -/
def execRetry (s : State) : Result :=
  .next ((({ s with rxAvailable := false, cmdOutstanding := false }.clearCycle).retransmit).answer .none)

/-- An opaque head: the command is handed to the caller with the whole remaining window (R176). The opcode itself is the
caller's business. -/
def execOpaque (_op : Byte) (s : State) : Result :=
  .next ({ s with cmdOutstanding := true }.answer (.cmd s.windowLen))

/-- `GET_NEXT`'s answer when the cycle has ended (R168). -/
def answerNone (s : State) : Result := .next (s.answer .none)

/-- The loop of `GET_NEXT` (R161), at most `passes` passes: end of cycle, or one command head. `rem + 1` passes are enough
(log entry 17), so the first equation is never reached from `execGetNext`. -/
def walk : Nat → State → Result
  | 0, s => .next s
  | passes + 1, s =>
    if s.cycAbandon || decide (s.dataEnd ≤ s.rxReadPtr) then andThen (endCycle s) answerNone
    else if s.cfg.rxCap < s.dataEnd then .fault (.noSuchIndex .rx (s.dataEnd - 1))
    else
      match headClassOf s.cfg s.headOpcode with
      | .reset => walk passes (s.resetHead s.headOperand)
      | .setaddr => walk passes (s.setaddrHead s.headOperand)
      | .retry => execRetry s
      | .opaqueCmd => execOpaque s.headOpcode s

/-- `GET_NEXT` (R161): NONE at once when no frame is available (R167) and, with the annotation, while disabled (R160, U14 of
93_implementation_defined.md); the same window again while a command is outstanding (R166); held while a response is
being emitted (R165); else the walk, with the driver calls of what it changed (R264). -/
def execGetNext (s : State) : Result :=
  if !s.enabled then .next ((s.raise (.callerProtocol .getNext)).answer .none)
  else if !s.rxAvailable then .next (s.answer .none)
  else if s.cmdOutstanding then .next (s.answer (.cmd s.windowLen))
  else if s.txEmitting then .next s
  else andThen (walk (s.windowLen + 1) s) fun t => .next (s.noteReady t)

/-- A command is handed out: what CONSUME and UNKNOWN_CMD need (R160). -/
def State.commandOut (s : State) : Bool := s.enabled && s.rxAvailable && s.cmdOutstanding

/-- `CONSUME(n)`: in range the cursor moves (R162), out of range the frame is abandoned with `STATUS_UNKNOWN` (R163),
with no command handed out it is ignored (R160). -/
def execConsume (n : Byte) (s : State) : Result :=
  if s.commandOut then
    let t := { s with cmdOutstanding := false }
    if 1 ≤ n.toNat ∧ n.toNat ≤ s.windowLen then .next ((t.advance n.toNat).answer .none)
    else
      .next (({ t with cycUnknown := true, cycAbandon := true }.raise (.badConsume n s.windowLen)).answer .none)
  else .next ((s.raise (.callerProtocol .consume)).answer .none)

/-- `UNKNOWN_CMD`: the command handed out is given up, the frame is abandoned with `STATUS_UNKNOWN` (R164); with no
command handed out it is ignored (R160). -/
def execUnknownCmd (s : State) : Result :=
  if s.commandOut then
    if s.hasIndex .rx s.rxReadPtr then
      .next (({ s with cmdOutstanding := false, cycUnknown := true, cycAbandon := true }.raise
        (.unknownOpcode s.headOpcode)).answer .none)
    else .fault (.noSuchIndex .rx s.rxReadPtr)
  else .next ((s.raise (.callerProtocol .unknownCmd)).answer .none)

end Sys2Proof.Machine
end

