-- ==== Sys2Proof/Machine/Lifecycle.lean ====
section
/-! DEFINITION. Lifecycle and reset: NOP, BEGIN, END (44_lifecycle.md R260 to R263) and RST (70_reset_and_hazards.md R330). -/

namespace Sys2Proof.Machine

/-- `NOP` (R263). -/
def execNop (s : State) : Result := .next (s.answer .none)

/-- `BEGIN`: the reset state, enabled, and both drivers' `begin()` (R260, R261). -/
def execBegin (s : State) : Result :=
  .next (((({ s.resetCore with enabled := true }).note (.driver .senseBegin)).note (.driver .ledBegin)).answer .none)

/-- `END`: the reset state, disabled (R262); while disabled it has no effect and is recorded (R160, U14 of
93_implementation_defined.md; log entry 15). -/
def execEnd (s : State) : Result :=
  if s.enabled then .next (s.resetCore.answer .none)
  else .next ((s.raise (.callerProtocol .endOp)).answer .none)

/-- `RST`: the reset state; no driver's `begin()` is called (R330). -/
def execRst (s : State) : Result := .next s.resetCore

end Sys2Proof.Machine
end

