-- ==== Sys2Proof/Machine/Receiver.lean ====
section
/-! DEFINITION. The Frame Receiver: RX_SYNC, RX_MARK and RX_DATA, the three classes of `RX_BYTE` (40_receiver.md R120 to
R131). -/

namespace Sys2Proof.Machine

/-- What every receive event does first: held while a frame is available, accepted and dropped while disabled; neither
changes the state (R121). -/
def rxGate (s : State) (f : State → Result) : Result :=
  if s.rxHeld then .next s
  else if s.enabled then f s
  else .next s

/-- A SYNC that starts a frame: the buffer is cleared, the cursor and the escape flag too (R122). -/
def rxStart (s : State) : State :=
  { s with rxSize := 0, rxReadPtr := 0, rxEscaping := false, rxReceiving := true }

/-- The byte just stored is LEN: zero is discarded (R126), a length beyond the buffer is the receive overflow (R127),
any other length goes on. `s` is the state after the store. -/
def rxLenStored (v : Byte) (s : State) : State :=
  let a := s.byte .rx 0
  if v = 0 then { s with rxReceiving := false }.raise (.lenZero a)
  else if s.cfg.rxCap < v.toNat + 2 then
    { s with rxReceiving := false, rxOvfPending := s.rxOvfPending || s.accepts a }.raise (.rxOverflow a v.toNat)
  else s

/-- The byte just stored is CHECKSUM, at index `i`: the sum is tested, then the address (R128, R130). `s` is the state
after the store. -/
def rxCompleted (v : Byte) (i : Nat) (s : State) : State :=
  let sum := sum8 (s.bytes .rx 0 i)
  let a := s.byte .rx 0
  let t := { s with rxReceiving := false }
  if sum ≠ v then t.raise (.sumMismatch sum v)
  else if s.accepts a then { t with rxAvailable := true, rxReadPtr := 2 }.raise (.frameAccepted a s.rxLen)
  else t.raise (.addrMismatch a)

/-- The state after a byte of a frame is stored: the value undoes the transmitter's decrement after an escape marker,
lands at index `rx_size`, and `rx_size` grows by one (R124). -/
def rxPut (b : Byte) (s : State) : State :=
  { s.store .rx s.rxSize (unescaped s.rxEscaping b) with rxEscaping := false, rxSize := s.rxSize + 1 }

/-- What the byte just stored at index `i` means: LEN at index 1, CHECKSUM where the frame is complete (R126 to R128). -/
def rxClassify (v : Byte) (i : Nat) (s : State) : State :=
  if i + 1 = 2 then rxLenStored v s
  else if 3 ≤ i + 1 ∧ i + 1 = s.rxLen + 2 then rxCompleted v i s
  else s

/-- A byte of a frame (R124 to R130). -/
def rxStore (b : Byte) (s : State) : Result :=
  if s.hasIndex .rx s.rxSize then .next (rxClassify (unescaped s.rxEscaping b) s.rxSize (rxPut b s))
  else .fault (.noSuchIndex .rx s.rxSize)

/-- `RX_SYNC` (R122, R131): starts a frame, or mid-frame in STORE mode is stored like any other byte. -/
def execRxSync (s : State) : Result :=
  rxGate s fun s =>
    if !s.rxReceiving || s.cfg.syncInFrame == .restart then .next (rxStart s)
    else rxStore s.cfg.sync s

/-- `RX_MARK` (R123): mid-frame it sets the escape flag and is not stored; otherwise it is ignored (R125). -/
def execRxMark (s : State) : Result :=
  rxGate s fun s => if s.rxReceiving then .next { s with rxEscaping := true } else .next s

/-- `RX_DATA` (R124): mid-frame it is stored; otherwise it is ignored (R125). -/
def execRxData (b : Byte) (s : State) : Result :=
  rxGate s fun s => if s.rxReceiving then rxStore b s else .next s

end Sys2Proof.Machine
end

