-- ==== Sys2Proof/Machine/Dispatch.lean ====
section
/-! DEFINITION. `exec`: one arm per constructor of `Instr`, each one direct call of its meaning. -/

namespace Sys2Proof.Machine

/-- The effect of an event or command head (30_encoding.md R90, R106). -/
def exec (i : Instr) (s : State) : Host.Outcome State Fault Refusal :=
  match i with
  | .nop => Sys2Proof.Machine.execNop s
  | .getNext => Sys2Proof.Machine.execGetNext s
  | .consume n => Sys2Proof.Machine.execConsume n s
  | .pushReport c => Sys2Proof.Machine.execPushReport c s
  | .pushData b => Sys2Proof.Machine.execPushData b s
  | .beginOp => Sys2Proof.Machine.execBegin s
  | .endOp => Sys2Proof.Machine.execEnd s
  | .unknownCmd => Sys2Proof.Machine.execUnknownCmd s
  | .rxSync => Sys2Proof.Machine.execRxSync s
  | .rxMark => Sys2Proof.Machine.execRxMark s
  | .rxData b => Sys2Proof.Machine.execRxData b s
  | .txEmit => Sys2Proof.Machine.execTxEmit s
  | .reset arg => Sys2Proof.Machine.execReset arg s
  | .setaddr a => Sys2Proof.Machine.execSetaddr a s
  | .retry => Sys2Proof.Machine.execRetry s
  | .opaqueCmd op => Sys2Proof.Machine.execOpaque op s
  | .rst => Sys2Proof.Machine.execRst s

end Sys2Proof.Machine
end

