-- ==== Sys2Proof/Machine/Fetch.lean ====
section
/-! DEFINITION. Which offer transfers next (00_scope.md R13, 30_encoding.md R106), how the transfers of one clock are
serialised (R106, R348), and how a word of the opcode table is placed where the next step takes it. -/

namespace Sys2Proof.Machine

/-- The agent that makes an offer (R13). -/
def offerAgent : Offer → Agent
  | .callerOp _ => .caller
  | .rxByte _ => .byteSource
  | .txReady => .byteSink
  | .rst => .resetInput

/-- The first offer whose event is not held, with the offers that stay. An offer never overtakes an earlier one of its
own agent: `waiting` lists the agents whose offer is held (R10, R121, R165; log entries 5 and 6). -/
def pickOffer (s : State) : List Agent → List Offer → Option (Offer × List Offer)
  | _, [] => none
  | waiting, o :: rest =>
    if waiting.contains (offerAgent o) || held (decodeOffer s.cfg o) s then
      (pickOffer s (offerAgent o :: waiting) rest).map fun p => (p.1, o :: p.2)
    else some (o, rest)

/-- The next event and the state that offers the rest. -/
def fetch (s : State) : Option (Instr × State) :=
  (pickOffer s [] s.offers).map fun p => (decodeOffer s.cfg p.1, { s with offers := p.2 })

/-- The order in which the transfers of one clock are applied: `RST`, caller operation, `RX_BYTE`, `TX_EMIT`
(R106, R348; log entry 18). -/
def serialise (c : Cycle) : List Offer :=
  (if c.rst then [.rst] else []) ++ (c.callerOp.toList.map .callerOp) ++ (c.rxByte.toList.map .rxByte) ++
    (if c.txReady then [.txReady] else [])

/-- The state in which a broadcast frame with this DATA has just been accepted and `GET_NEXT` is offered: where the next
step walks the bytes as command heads (log entry 11). -/
def State.withData (s : State) (data : List Byte) : State :=
  { s with
    enabled := true
    rxBuf := s.rxBuf.writeList 0 (frameImage s.cfg.broadcast data)
    rxSize := data.length + 3
    rxReceiving := false
    rxEscaping := false
    rxAvailable := true
    rxReadPtr := 2
    cmdOutstanding := false
    cycAbandon := false
    txEmitting := false
    offers := .callerOp (callerWord .getNext 0) :: s.offers }

/-- An encoded row placed so that the next step takes it (log entry 11). -/
def State.withEncoded (s : State) : Encoded → State
  | .port o => { s with offers := o :: s.offers }
  | .head bytes => s.withData bytes

end Sys2Proof.Machine
end

