-- ==== Sys2Proof/Machine/Step.lean ====
section
/-! DEFINITION. One step of the machine: the next event that an agent offers and that is not held. -/

namespace Sys2Proof.Machine

/-- One step (00_scope.md R3, R13; 30_encoding.md R106: at most one event happens per step). An ill-formed configuration
is refused (R8). With no offer, or only held ones, no event happens (R10). -/
def step (s : State) : Host.Outcome State Fault Refusal :=
  if s.cfg.wf then
    match fetch s with
    | some (i, t) => exec i t
    | none => .next s
  else .refused .illFormedConfig

/-- A word of spec/opcode_table.json offered next: a port word is offered at its port, a command head stands in an
accepted frame with GET_NEXT offered. Bytes that are no row change nothing. -/
def State.withFetchWord (s : State) (nbits w : Nat) : State :=
  match encodedOfBytes s.cfg (tableBytes nbits w) with
  | .ok e => s.withEncoded e
  | .error _ => s

end Sys2Proof.Machine
end

