-- ==== Sys2Proof/Machine/Script.lean ====
section
/-! DEFINITION. Sequences of events, the script notation of 30_encoding.md R110 to R112: `RX`, `FRAME`, `TX`, `DRAIN`. -/

namespace Sys2Proof.Machine

/-- Events one after the other, stopping at the first that has no next state (R110). -/
def runEvents : List Instr → State → Result
  | [], s => .next s
  | i :: is, s => andThen (exec i s) (runEvents is)

/-- `RX <bytes>`: one `RX_BYTE` per byte, in order (R110). -/
def rxEvents (c : Config) (bytes : List Byte) : List Instr := bytes.map (decodeRx c)

/-- `FRAME a: d0 d1 ...` (R111). -/
def frameEvents (c : Config) (addr : Byte) (data : List Byte) : List Instr := rxEvents c (frameWire c addr data)

/-- `TX` repeated while `tx_valid`: as many as bytes remain to be emitted (R112). -/
def drainEvents (s : State) : List Instr :=
  if s.txValid then List.replicate (s.retLen - s.txEmitPtr) .txEmit else []

/-- The bytes emitted, in order, according to a trace. -/
def emittedBytes : List Note → List Byte
  | [] => []
  | .emitted b :: ns => emittedBytes ns ++ [b]
  | .raised _ :: ns => emittedBytes ns
  | .answered _ :: ns => emittedBytes ns
  | .driver _ :: ns => emittedBytes ns

/-- The calls `set(v)` of the two drivers, in order, according to a trace (R264). -/
def setCalls : List Note → List DriverCall
  | [] => []
  | .driver (.senseSet v) :: ns => setCalls ns ++ [.senseSet v]
  | .driver (.ledSet v) :: ns => setCalls ns ++ [.ledSet v]
  | .driver .senseBegin :: ns => setCalls ns
  | .driver .ledBegin :: ns => setCalls ns
  | .emitted _ :: ns => setCalls ns
  | .raised _ :: ns => setCalls ns
  | .answered _ :: ns => setCalls ns

/-- Whether a trace entry is a driver call. -/
def Note.isDriver : Note → Bool
  | .driver _ => true
  | .raised _ => false
  | .answered _ => false
  | .emitted _ => false

/-- The result of an event, but for the driver calls in its trace: those are made once per event, so that one event and
the two it is split into may differ in them (R264; log entry 12). -/
def withoutCalls (r : Result) : Result :=
  andThen r fun t => .next { t with trace := t.trace.filter fun n => !n.isDriver }

/-- The windows handed out by `GET_NEXT`, in order, according to a trace: the lengths of its CMD answers (R103). -/
def handedOut : List Note → List Nat
  | [] => []
  | .answered (.cmd n) :: ns => handedOut ns ++ [n]
  | .answered .none :: ns => handedOut ns
  | .emitted _ :: ns => handedOut ns
  | .raised _ :: ns => handedOut ns
  | .driver _ :: ns => handedOut ns

/-- Pushes of report codes (`true`) and result bytes (`false`), in order (R201, R202). -/
def pushEvents (pushes : List (Bool × Byte)) : List Instr :=
  pushes.map fun p => if p.1 then .pushReport p.2 else .pushData p.2

/-- An opaque command and the caller's answer to it: one report code and its result bytes (R177). -/
structure Served where
  opcode : Byte
  payload : List Byte
  code : Byte
  result : List Byte
deriving DecidableEq, Repr

/-- The bytes of the command in DATA. -/
def Served.command (v : Served) : List Byte := v.opcode :: v.payload

/-- The report bytes of the answer. -/
def Served.report (v : Served) : List Byte := v.code :: v.result

/-- A caller's handling of one command: `NEXT`, the report, its result bytes, `CONSUME` of the command's length (R177). -/
def Served.events (v : Served) : List Instr :=
  [.getNext, .pushReport v.code] ++ v.result.map .pushData ++ [.consume (BitVec.ofNat 8 v.command.length)]

/-- A caller's handling of a frame: each command in turn, and the `NEXT` that ends the cycle (R177). -/
def serveEvents (vs : List Served) : List Instr := vs.flatMap Served.events ++ [.getNext]

/-- The window at each command: the bytes from it to the end of DATA (R177). -/
def windowLengths : List Served → List Nat
  | [] => []
  | v :: vs => ((v :: vs).flatMap Served.command).length :: windowLengths vs

end Sys2Proof.Machine
end

