-- ==== Sys2Proof/Safety.lean ====
section
/-! DEFINITION. What a good state and a safe run are: the invariants of 10_state.md R48, clause by clause, the canonical
form of the buffers, and reachability from the reset state. -/

namespace Sys2Proof.Machine

/-- R48 (1): the cursor is within the frame, the frame within the buffer. -/
abbrev State.CursorOk (s : State) : Prop := s.rxReadPtr ≤ s.rxSize ∧ s.rxSize ≤ s.cfg.rxCap

/-- R48 (2). -/
abbrev State.EscapeOk (s : State) : Prop := s.rxReceiving = false → s.rxEscaping = false

/-- R48 (3): a frame in progress has not reached its declared end, which fits the buffer. -/
abbrev State.ReceivingOk (s : State) : Prop :=
  s.rxReceiving = true →
    (s.rxSize ≤ 1 ∨ (s.rxSize < s.rxLen + 2 ∧ s.rxLen + 2 ≤ s.cfg.rxCap)) ∧ s.rxAvailable = false

/-- R48 (4), but for the address filter, which is about the moment the frame completed: an available frame is complete,
its checksum holds, and the cursor is in DATA or at its end. -/
abbrev State.AvailableOk (s : State) : Prop :=
  s.rxAvailable = true →
    s.rxSize = s.rxLen + 2 ∧ 3 ≤ s.rxSize ∧ 2 ≤ s.rxReadPtr ∧ s.rxReadPtr ≤ s.rxSize - 1 ∧
      sum8 (s.bytes .rx 0 (s.rxSize - 1)) = s.byte .rx (s.rxSize - 1)

/-- R48 (5). -/
abbrev State.OutstandingOk (s : State) : Prop :=
  s.cmdOutstanding = true → s.rxAvailable = true ∧ s.rxReadPtr < s.rxSize - 1

/-- R48 (6). -/
abbrev State.AddressOk (s : State) : Prop := s.devAddr = 0 ∨ s.cfg.addrInRange s.devAddr = true

/-- R48 (7). -/
abbrev State.ReadyOk (s : State) : Prop := s.senseReady = (s.devAddr != 0) ∧ s.ledReady = (s.devAddr != 0)

/-- R48 (8). -/
abbrev State.ReportOk (s : State) : Prop := 1 ≤ s.txReportSize ∧ s.txReportSize ≤ s.cfg.qMax

/-- R48 (9). -/
abbrev State.LatchOk (s : State) : Prop :=
  (s.txEmitting = true → s.retValid = true ∧ s.txEmitPtr < s.retLen) ∧
    (s.retValid = true → 5 ≤ s.retLen ∧ s.retLen ≤ s.cfg.retCap ∧ s.byte .ret 0 = s.cfg.sync)

/-- R48 (10): while disabled every register but the buffers has its reset value. -/
abbrev State.DisabledOk (s : State) : Prop :=
  s.enabled = false →
    (s.rxSize = 0 ∧ s.rxReadPtr = 0 ∧ s.rxReceiving = false ∧ s.rxEscaping = false ∧ s.rxAvailable = false ∧
      s.rxOvfPending = false) ∧
    (s.devAddr = 0 ∧ s.senseReady = false ∧ s.ledReady = false) ∧
    (s.cmdOutstanding = false ∧ s.cycAbandon = false ∧ s.cycUnknown = false ∧ s.cycResetSeen = false) ∧
    (s.txReportSize = 1 ∧ s.txOvf = false ∧ s.retLen = 0 ∧ s.retValid = false ∧ s.txEmitPtr = 0 ∧ s.txEmitting = false)

/-- The registers of the retry latch stay in the ranges R39 and R41 declare. -/
abbrev State.RangesOk (s : State) : Prop := s.txEmitPtr ≤ s.retLen ∧ s.retLen ≤ s.cfg.retCap

/-- Every buffer is in its canonical form and lists only indexes it has (R60). -/
abbrev State.BuffersOk (s : State) : Prop :=
  (s.rxBuf.wf = true ∧ s.txBuf.wf = true ∧ s.retBuf.wf = true) ∧
    (s.rxBuf.within s.cfg.rxCap = true ∧ s.txBuf.within s.cfg.txCap = true ∧ s.retBuf.within s.cfg.retCap = true)

/-- A good state: a well-formed configuration (R8) and R48. -/
structure State.Inv (s : State) : Prop where
  config : s.cfg.wf = true
  cursor : s.CursorOk
  escape : s.EscapeOk
  receiving : s.ReceivingOk
  available : s.AvailableOk
  outstanding : s.OutstandingOk
  address : s.AddressOk
  ready : s.ReadyOk
  report : s.ReportOk
  latch : s.LatchOk
  disabled : s.DisabledOk
  ranges : s.RangesOk
  buffers : s.BuffersOk

/-- Power-on of an instance with a configuration, and everything its agents will present (R21, R331, R332). -/
def State.powerOn (c : Config) (offers : List Offer) : State := { State.reset with cfg := c, offers := offers }

/-- The states reachable from reset by steps, for any well-formed configuration and any agents (R48). -/
inductive Reachable : State → Prop where
  | powerOn (c : Config) (offers : List Offer) (h : c.wf = true) : Reachable (State.powerOn c offers)
  | step (s t : State) (hs : Reachable s) (h : Machine.step s = .next t) : Reachable t

/-- A safe state: the next step neither faults nor refuses. -/
def State.Safe (s : State) : Prop := ∃ t, Machine.step s = .next t

/-- The registers of R20 and the buffers agree: two states are the same core. -/
def State.SameCore (s t : State) : Prop :=
  t = { s with cfg := t.cfg, draws := t.draws, offers := t.offers, trace := t.trace }

/-- The receive events that store the byte `b` mid-frame: RX_DATA, and RX_SYNC in STORE mode (R124, R131). -/
def State.StoresByte (s : State) (i : Instr) (b : Byte) : Prop :=
  i = .rxData b ∨ (i = .rxSync ∧ b = s.cfg.sync ∧ s.cfg.syncInFrame = .store)

/-- Every offer of the list waits: its event is held, or an earlier offer of the same agent waits (R10, R121, R165; log
entries 5 and 6). -/
def State.AllWait (s : State) (offers : List Offer) : Prop :=
  ∀ l o r, offers = l ++ o :: r → held (decodeOffer s.cfg o) s = true ∨ ∃ p ∈ l, offerAgent p = offerAgent o

/-- Two states hold the same byte at every index of every space but those of `except`. -/
def State.SameBytesBut (except : Space → Nat → Prop) (s t : State) : Prop :=
  ∀ sp i, ¬ except sp i → t.byte sp i = s.byte sp i

end Sys2Proof.Machine
end

