-- ==== Sys2Proof/Certificates/Slice0/Obligations.lean ====
section
/-! DEFINITION. The statements for the provers. Each docstring names the rule of spec/ it formalises. A statement that rests
on a choice of the model names the log entry of notes/assumptions/ that declares it. -/

open Sys2Proof Sys2Proof.Machine

/-! ## Encoding -/

/-- Decoding the encoded form of any well-formed instruction gives it back, for every operand and every well-formed
configuration; and whatever the decoder reads is a well-formed instruction: no byte of one class is read as another
(30_encoding.md R85, R90, R91, R100 to R104). -/
def Obligations.DecodeAndEncodeAgree : Prop :=
  (∀ (c : Config) (i : Instr), c.wf = true → i.wf c = true → decode c (encode c i) = .ok i) ∧
  (∀ (c : Config) (e : Encoded) (i : Instr), decode c e = .ok i → i.wf c = true)

/-- R102: the table of the caller operation codes. Every word is one code and one argument; the code selects the
operation; the argument is the operand of CONSUME, PUSH_REPORT and PUSH_DATA and is ignored elsewhere. -/
def Obligations.CallerWordsFollowTheTable : Prop :=
  (∀ w : CallerWord, ∃ op arg, w = callerWord op arg) ∧
  (∀ op arg, callerWord op arg = (op.code.setWidth 11 : CallerWord) <<< (8 : Nat) ||| (arg.setWidth 11 : CallerWord)) ∧
  (CallerOp.nop.code = 0 ∧ CallerOp.getNext.code = 1 ∧ CallerOp.consume.code = 2 ∧ CallerOp.pushReport.code = 3 ∧
    CallerOp.pushData.code = 4 ∧ CallerOp.beginOp.code = 5 ∧ CallerOp.endOp.code = 6 ∧ CallerOp.unknownCmd.code = 7) ∧
  (∀ arg, decodeCaller (callerWord .nop arg) = .nop ∧ decodeCaller (callerWord .getNext arg) = .getNext ∧
    decodeCaller (callerWord .consume arg) = .consume arg ∧
    decodeCaller (callerWord .pushReport arg) = .pushReport arg ∧
    decodeCaller (callerWord .pushData arg) = .pushData arg ∧ decodeCaller (callerWord .beginOp arg) = .beginOp ∧
    decodeCaller (callerWord .endOp arg) = .endOp ∧ decodeCaller (callerWord .unknownCmd arg) = .unknownCmd)

/-- R85, R90, R91: bytes and heads are classified by equality with the configuration, and in a well-formed one the classes
are disjoint. A received byte is SYNC, the escape marker or data. At a command boundary the operand of RESET and SETADDR
is the byte after the opcode, unmodified, or missing where DATA ends; RETRY has none; any other opcode is opaque; no
bytes are no command. -/
def Obligations.BytesAndHeadsAreClassifiedByEquality : Prop :=
  ∀ c : Config, c.wf = true →
    (c.sync ≠ c.esc ∧ decodeRx c c.sync = .rxSync ∧ decodeRx c c.esc = .rxMark ∧
      ∀ b, b ≠ c.sync → b ≠ c.esc → decodeRx c b = .rxData b) ∧
    (∀ rest, decodeHead c (c.cmdReset :: rest) = .ok (.reset rest.head?) ∧
      decodeHead c (c.cmdSetaddr :: rest) = .ok (.setaddr rest.head?) ∧
      decodeHead c (c.cmdRetry :: rest) = .ok .retry) ∧
    (∀ op rest, op ≠ c.cmdReset → op ≠ c.cmdSetaddr → op ≠ c.cmdRetry →
      decodeHead c (op :: rest) = .ok (.opaqueCmd op)) ∧
    decodeHead c [] = .error .emptyWindow

/-- Words of 95_test_vectors.md and the markers and opcodes of R7's default decode to the instructions they stand for. The
bytes are the default's, from general knowledge (log entry 2, PRESUMED). That a lone byte of the table is read as a
command head where it is a core opcode, with a zero operand, and else as a received byte is the model's choice (log
entry 10, DESIGN CHOICE). -/
def Obligations.WrittenOutWordsDecode : Prop :=
  decodeTableWord 16 0x100 = some .getNext ∧ decodeTableWord 16 0x202 = some (.consume 2) ∧
  decodeTableWord 16 0x4D0 = some (.pushData 0xD0) ∧ decodeTableWord 16 0x700 = some .unknownCmd ∧
  decodeTableWord 8 0xE0 = some .rxSync ∧ decodeTableWord 8 0xD0 = some .rxMark ∧
  decodeTableWord 8 0xF1 = some (.setaddr (some 0)) ∧ decodeTableWord 8 0x2F = some .retry ∧
  decodeHead Config.default [0xF0, 0xD9] = .ok (.reset (some 0xD9)) ∧
  decodeHead Config.default [0x10, 0x11, 0x12] = .ok (.opaqueCmd 0x10)

/-! ## The wire -/

/-- R132: the checksum is exact wrap-around addition: the sum of the bytes mod 256. R225: the wire image is SYNC and the
escaped bytes; its length counts the markers twice; a response's lies between 5 and `RET_CAP`. -/
def Obligations.ChecksumAndWireImageAreTheStatedOnes : Prop :=
  ((∀ l : List Byte, (sum8 l).toNat = (l.map BitVec.toNat).sum % 256) ∧ (∀ a : Byte, sum8 [a, 0x01] = a + 0x01)) ∧
  ∀ (c : Config) (image : List Byte), c.wf = true →
    wireImage c image = [c.sync] ++ image.flatMap (escape c) ∧
    (wireImage c image).length = 1 + image.length + (image.filter fun v => v == c.sync || v == c.esc).length ∧
    (4 ≤ image.length → image.length ≤ c.txCap → 5 ≤ (wireImage c image).length ∧ (wireImage c image).length ≤ c.retCap)

/-- R135: feeding the escaped image of any frame that fits to an idle, enabled receiver stores exactly the image, in both
`SYNC_IN_FRAME` modes and for every well-formed configuration. It is then available iff its checksum and its address
are right (R129, R130), and no other buffer changes. -/
def Obligations.ReceiverStoresTheEncodedImage : Prop :=
  ∀ (s : State) (a : Byte) (data : List Byte) (ck : Byte), s.cfg.wf = true →
    s.enabled = true → s.rxAvailable = false → s.rxReceiving = false → data.length + 3 ≤ s.cfg.rxCap →
    let image := a :: BitVec.ofNat 8 (data.length + 1) :: data ++ [ck]
    ∃ t, runEvents (rxEvents s.cfg (wireImage s.cfg image)) s = .next t ∧
      t.bytes .rx 0 image.length = image ∧ t.rxSize = image.length ∧ t.rxReceiving = false ∧
      t.rxAvailable = (sum8 (a :: BitVec.ofNat 8 (data.length + 1) :: data) == ck && s.accepts a) ∧
      (∀ i, t.byte .tx i = s.byte .tx i) ∧ (∀ i, t.byte .ret i = s.byte .ret i)

/-- R134, S2 of 95_test_vectors.md: a frame with one byte other than LEN changed, whichever it is, is discarded
silently: nothing becomes available and nothing is emitted or answered. -/
def Obligations.OneCorruptedByteIsDiscardedSilently : Prop :=
  ∀ (s : State) (a : Byte) (data : List Byte) (k : Nat) (v : Byte), s.cfg.wf = true →
    s.enabled = true → s.rxAvailable = false → s.rxReceiving = false → data.length + 3 ≤ s.cfg.rxCap →
    k < data.length + 3 → k ≠ 1 → (frameImage a data)[k]? ≠ some v →
    ∃ t computed received, runEvents (rxEvents s.cfg (wireImage s.cfg ((frameImage a data).set k v))) s = .next t ∧
      t.rxAvailable = false ∧ t.rxReceiving = false ∧ t.txEmitting = s.txEmitting ∧ t.retBuf = s.retBuf ∧
      t.rxOvfPending = s.rxOvfPending ∧ t.trace = .raised (.sumMismatch computed received) :: s.trace ∧
      computed ≠ received

/-- R242, R133: a response, fed to an idle receiver, is stored as exactly its image and passes the checksum: the only
condition raised is that its ADDR, the host's, is not this device's. -/
def Obligations.ResponsePassesTheReceiversChecksum : Prop :=
  ∀ (r : State) (status : Byte) (reports : List Byte), r.Inv → r.enabled = true → r.rxAvailable = false →
    r.rxReceiving = false → reports.length + 4 ≤ r.cfg.rxCap →
    let image := frameImage r.cfg.hostAddr (status :: reports)
    ∃ t, runEvents (rxEvents r.cfg (wireImage r.cfg image)) r = .next t ∧
      t.bytes .rx 0 image.length = image ∧ t.rxSize = image.length ∧ t.rxAvailable = false ∧
      t.trace = .raised (.addrMismatch r.cfg.hostAddr) :: r.trace

/-! ## Frame Receiver -/

/-- R122, R131, R124: a SYNC outside a frame, or in RESTART mode anywhere, starts a frame: the buffer is cleared, the cursor
and the escape flag too, and nothing is stored. Mid-frame in STORE mode it is a data byte, stored as SYNC or, after an
escape marker, as SYNC +8 1. -/
def Obligations.SyncStartsAFrameOrIsStored : Prop :=
  ∀ s : State, s.enabled = true → s.rxAvailable = false →
    ((s.rxReceiving = false ∨ s.cfg.syncInFrame = .restart) →
      exec .rxSync s = .next { s with rxSize := 0, rxReadPtr := 0, rxEscaping := false, rxReceiving := true }) ∧
    (s.rxReceiving = true → s.cfg.syncInFrame = .store → s.rxSize < s.cfg.rxCap →
      ∃ t, exec .rxSync s = .next t ∧
        t.byte .rx s.rxSize = (if s.rxEscaping then s.cfg.sync + 1 else s.cfg.sync) ∧
        s.SameBytesBut (fun sp i => sp = .rx ∧ i = s.rxSize) t ∧
        t = { s with
          rxBuf := t.rxBuf
          rxSize := s.rxSize + 1
          rxEscaping := false
          rxReceiving := t.rxReceiving
          rxAvailable := t.rxAvailable
          rxOvfPending := t.rxOvfPending
          rxReadPtr := t.rxReadPtr
          trace := t.trace })

/-- R123: an escape marker mid-frame is not stored and sets the escape flag; a second one leaves it set, so that
`ESC ESC x` stores x +8 1; outside a frame it is ignored. -/
def Obligations.MarkSetsTheEscapeFlag : Prop :=
  ∀ s : State, s.enabled = true → s.rxAvailable = false →
    (s.rxReceiving = true → exec .rxMark s = .next { s with rxEscaping := true }) ∧
    (s.rxReceiving = false → exec .rxMark s = .next s) ∧
    (s.rxReceiving = true → s.rxSize < s.cfg.rxCap → ∀ x, ∃ t,
      runEvents [.rxMark, .rxMark, .rxData x] s = .next t ∧ t.byte .rx s.rxSize = x + 1 ∧ t.rxSize = s.rxSize + 1)

/-- R124: any other byte mid-frame, a SYNC in STORE mode among them, is stored at index `rx_size`, incremented mod 256 after
an escape marker, whichever field it lands in; `rx_size` grows by one and the escape flag is cleared. Only the receiver's
flags, its cursor and the trace may change besides, and where the byte is neither LEN nor CHECKSUM not even those. -/
def Obligations.DataByteIsStored : Prop :=
  ∀ (s : State) (i : Instr) (b : Byte), s.StoresByte i b → s.enabled = true → s.rxAvailable = false →
    s.rxReceiving = true → s.rxSize < s.cfg.rxCap →
    ∃ t, exec i s = .next t ∧
      (s.rxSize ≠ 1 → s.rxSize + 1 ≠ s.rxLen + 2 →
        t.rxReceiving = true ∧ t.rxAvailable = false ∧ t.rxOvfPending = s.rxOvfPending ∧ t.rxReadPtr = s.rxReadPtr ∧
          t.trace = s.trace) ∧
      t.byte .rx s.rxSize = (if s.rxEscaping then b + 1 else b) ∧
      s.SameBytesBut (fun sp i => sp = .rx ∧ i = s.rxSize) t ∧
      t = { s with
        rxBuf := t.rxBuf
        rxSize := s.rxSize + 1
        rxEscaping := false
        rxReceiving := t.rxReceiving
        rxAvailable := t.rxAvailable
        rxOvfPending := t.rxOvfPending
        rxReadPtr := t.rxReadPtr
        trace := t.trace }

/-- R125: a byte other than SYNC received while no frame is in progress is ignored: no state changes. -/
def Obligations.OtherBytesAreIgnoredOutsideAFrame : Prop :=
  ∀ (s : State) (b : Byte), s.rxReceiving = false → b ≠ s.cfg.sync → exec (decodeRx s.cfg b) s = .next s

/-- R121, R168: while a frame is available the port is not ready and every byte is held; while disabled the port is ready
and every byte is dropped; neither changes the state. The hold is lifted by no event but GET_NEXT (a retry among its
commands), END, RST, and BEGIN, which re-initialises (R260). -/
def Obligations.BytesAreHeldWhileAFrameIsAvailable : Prop :=
  ∀ (s : State) (b : Byte),
    (s.enabled = true → s.rxAvailable = true →
      exec (decodeRx s.cfg b) s = .next s ∧ held (decodeRx s.cfg b) s = true ∧ s.rxInReady = false) ∧
    (s.enabled = false →
      exec (decodeRx s.cfg b) s = .next s ∧ held (decodeRx s.cfg b) s = false ∧ s.rxInReady = true) ∧
    (∀ (t : State) (i : Instr), s.rxInReady = false → exec i s = .next t → t.rxInReady = true →
      i = .getNext ∨ i = .retry ∨ i = .beginOp ∨ i = .endOp ∨ i = .rst)

/-- R126, R127: the LEN byte, an unescaped SYNC in STORE mode (R131) among them. Zero is discarded silently; a length beyond
the buffer is discarded, and reported later iff the frame is addressed to this device; any other length goes on. Nothing
is stored beyond index 1. -/
def Obligations.LenByteIsChecked : Prop :=
  ∀ (s : State) (i : Instr) (b : Byte), s.StoresByte i b → s.cfg.wf = true → s.enabled = true →
    s.rxAvailable = false → s.rxReceiving = true → s.rxSize = 1 →
    let v := if s.rxEscaping then b + 1 else b
    let a := s.byte .rx 0
    ∃ t, exec i s = .next t ∧ t.byte .rx 1 = v ∧ s.SameBytesBut (fun sp i => sp = .rx ∧ i = 1) t ∧
      t.rxSize = 2 ∧ t.rxAvailable = false ∧
      (if v = 0 then
        t.rxReceiving = false ∧ t.rxOvfPending = s.rxOvfPending ∧ t.trace = .raised (.lenZero a) :: s.trace
      else if s.cfg.rxCap < v.toNat + 2 then
        t.rxReceiving = false ∧ t.trace = .raised (.rxOverflow a v.toNat) :: s.trace ∧
          (t.rxOvfPending = true ↔ s.rxOvfPending = true ∨ a = s.cfg.broadcast ∨ (s.devAddr ≠ 0 ∧ a = s.devAddr))
      else t.rxReceiving = true ∧ t.rxOvfPending = s.rxOvfPending ∧ t.trace = s.trace)

/-- R128, R129, R130: the byte that makes `rx_size = LEN + 2`, an unescaped SYNC in STORE mode (R131) among them, is the
checksum. The frame is available iff the sum of the bytes from ADDR to the last DATA byte equals it and ADDR is broadcast
or the address of an assigned device; the cursor then stands at the start of DATA. Accepted or not, no frame is in
progress afterwards and no emission starts. -/
def Obligations.CompleteFrameIsCheckedAndFiltered : Prop :=
  ∀ (s : State) (i : Instr) (b : Byte), s.StoresByte i b → s.enabled = true → s.rxAvailable = false →
    s.rxReceiving = true → 2 ≤ s.rxSize → s.rxSize < s.cfg.rxCap → s.rxSize + 1 = s.rxLen + 2 →
    let v := if s.rxEscaping then b + 1 else b
    let a := s.byte .rx 0
    ∃ t, exec i s = .next t ∧ t.rxReceiving = false ∧ t.rxEscaping = false ∧ t.rxSize = s.rxSize + 1 ∧
      (t.rxAvailable = true ↔
        sum8 (s.bytes .rx 0 s.rxSize) = v ∧ (a = s.cfg.broadcast ∨ (s.devAddr ≠ 0 ∧ a = s.devAddr))) ∧
      t.rxReadPtr = (if t.rxAvailable then 2 else s.rxReadPtr) ∧
      t.txEmitting = s.txEmitting ∧ t.devAddr = s.devAddr ∧ t.rxOvfPending = s.rxOvfPending

/-! ## Command demultiplexer -/

/-- R160, R166, R167: with no frame available GET_NEXT answers NONE at once, and so it does while disabled, which the trace
records (R308, U14); while a command is outstanding it answers the same window again. None of them flushes or changes
anything. -/
def Obligations.GetNextAnswersAtOnceWhenNothingIsToWalk : Prop :=
  ∀ s : State,
    (s.enabled = false → exec .getNext s =
      .next { s with trace := .answered .none :: .raised (.callerProtocol .getNext) :: s.trace }) ∧
    (s.enabled = true → s.rxAvailable = false →
      exec .getNext s = .next { s with trace := .answered .none :: s.trace }) ∧
    (s.enabled = true → s.rxAvailable = true → s.cmdOutstanding = true →
      exec .getNext s = .next { s with trace := .answered (.cmd (s.rxSize - 1 - s.rxReadPtr)) :: s.trace })

/-- R165: GET_NEXT is held, `op_ready` false, exactly while a frame is available, no command is outstanding and a response
is being emitted; held, it changes nothing. The hold is lifted by no port event but the TX_EMIT that ends the emission,
END, RST, and BEGIN, which re-initialises (R260). -/
def Obligations.GetNextIsHeldUntilTheEmissionEnds : Prop :=
  ∀ (s : State) (arg : Byte),
    (s.opReady (callerWord .getNext arg) = false ↔
      s.enabled = true ∧ s.rxAvailable = true ∧ s.cmdOutstanding = false ∧ s.txEmitting = true) ∧
    (s.opReady (callerWord .getNext arg) = false → exec .getNext s = .next s) ∧
    (∀ (t : State) (o : Offer), s.opReady (callerWord .getNext arg) = false →
      exec (decodeOffer s.cfg o) s = .next t → t.opReady (callerWord .getNext arg) = true →
      (decodeOffer s.cfg o = .txEmit ∧ s.txEmitPtr + 1 = s.retLen) ∨ decodeOffer s.cfg o = .endOp ∨
        decodeOffer s.cfg o = .rst ∨ decodeOffer s.cfg o = .beginOp)

/-- R161, R178: at a command boundary GET_NEXT runs the command at the head. After RESET and SETADDR it goes on as another
GET_NEXT would; RETRY and an opaque command end it. The traces agree but for the driver calls, which are made once per
event (log entry 12): OutputsFollowTheRegisters says which. -/
def Obligations.GetNextRunsTheCommandAtTheHead : Prop :=
  ∀ (s : State) (i : Instr), s.enabled = true → s.rxAvailable = true → s.cmdOutstanding = false →
    s.txEmitting = false → s.cycAbandon = false → s.rxReadPtr < s.rxSize - 1 → s.rxSize ≤ s.cfg.rxCap →
    decode s.cfg (.head s.window) = .ok i →
    withoutCalls (exec .getNext s) =
      withoutCalls (match i with
      | .reset _ | .setaddr _ => andThen (exec i s) (exec .getNext)
      | _ => exec i s)

/-- R168, R169: at the end of DATA, or abandoned, a cycle whose only effect was a reset is suppressed: nothing is sent, the
latch is unchanged, the frame is released and the cycle's state cleared; GET_NEXT answers NONE. -/
def Obligations.ResetOnlyCycleIsSuppressed : Prop :=
  ∀ s : State, s.enabled = true → s.rxAvailable = true → s.cmdOutstanding = false → s.txEmitting = false →
    (s.cycAbandon = true ∨ s.rxSize - 1 ≤ s.rxReadPtr) →
    s.cycResetSeen = true → s.txReportSize = 1 → s.cycUnknown = false → s.txOvf = false →
    exec .getNext s = .next { s with
      rxAvailable := false
      cycAbandon := false
      cycResetSeen := false
      trace := .answered .none :: .raised .responseSuppressed :: s.trace }

/-- R220 to R227, R168, R83: at the end of any other cycle the response is flushed. The retry latch holds the wire image of
the frame to the host whose DATA is the status and the queued reports in push order, the emission starts at its first
byte, the frame is released, the cycle's state is cleared and GET_NEXT answers NONE. The receive buffer and the latch
bytes beyond the response keep their values. -/
def Obligations.EndOfCycleFlushesTheResponse : Prop :=
  ∀ s : State, s.cfg.wf = true → s.enabled = true → s.rxAvailable = true → s.cmdOutstanding = false →
    s.txEmitting = false → (s.cycAbandon = true ∨ s.rxSize - 1 ≤ s.rxReadPtr) →
    ¬ (s.cycResetSeen = true ∧ s.txReportSize = 1 ∧ s.cycUnknown = false ∧ s.txOvf = false) →
    1 ≤ s.txReportSize → s.txReportSize ≤ s.cfg.qMax →
    let response := wireImage s.cfg (frameImage s.cfg.hostAddr (s.status :: s.bytes .tx 3 (s.txReportSize - 1)))
    ∃ t, exec .getNext s = .next t ∧
      t.bytes .ret 0 response.length = response ∧
      s.SameBytesBut (fun sp i => (sp = .ret ∧ i < response.length) ∨ (sp = .tx ∧ (i < 3 ∨ i = s.txReportSize + 2))) t ∧
      t = { s with
        txBuf := t.txBuf
        retBuf := t.retBuf
        retLen := response.length
        retValid := true
        txEmitPtr := 0
        txEmitting := true
        rxAvailable := false
        txReportSize := 1
        txOvf := false
        cycUnknown := false
        cycAbandon := false
        cycResetSeen := false
        rxOvfPending := t.rxOvfPending
        trace := .answered .none :: .raised (.responseFlushed s.status s.txReportSize) :: s.trace } ∧
      (t.rxOvfPending = true ↔ s.rxOvfPending = true ∧ s.status ≠ s.cfg.statusOverflow)

/-- R222: the status of a response: unknown before overflow before normal, and never the sum-error status. -/
def Obligations.StatusHasThePriorityOfTheSpec : Prop :=
  ∀ s : State, s.cfg.wf = true →
    (s.cycUnknown = true → s.status = s.cfg.statusUnknown) ∧
    (s.cycUnknown = false → (s.txOvf = true ∨ s.rxOvfPending = true) → s.status = s.cfg.statusOverflow) ∧
    (s.cycUnknown = false → s.txOvf = false → s.rxOvfPending = false → s.status = s.cfg.statusNormal) ∧
    s.status ≠ s.cfg.statusSumError

/-- R170: RESET with its argument clears the address, drives sense and LED to not-ready and moves the cursor past it; it
pushes no report and clears neither the latch, nor the pending overflow, nor the queued reports. The driver calls are
recorded as log entry 12 says. -/
def Obligations.ResetCommandClearsTheAddress : Prop :=
  ∀ s : State, exec (.reset (some s.cfg.resetArg)) s = .next { s with
    devAddr := 0
    senseReady := false
    ledReady := false
    cycResetSeen := true
    rxReadPtr := s.rxReadPtr + 2
    trace := (if s.ledReady then [.driver (.ledSet false)] else []) ++
      ((if s.senseReady then [.driver (.senseSet false)] else []) ++ s.trace) }

/-- R171: a RESET whose argument is missing or wrong, and a SETADDR whose argument is missing, only set `cyc_unknown` and
`cyc_abandon`; nothing is consumed and none of RESET's effects happens. -/
def Obligations.MalformedCommandsAbandonTheFrame : Prop :=
  ∀ (s : State) (arg : Option Byte),
    (arg ≠ some s.cfg.resetArg → exec (.reset arg) s = .next { s with
      cycUnknown := true
      cycAbandon := true
      trace := .raised (.malformed s.cfg.cmdReset (s.rxSize - 1 - s.rxReadPtr)) :: s.trace }) ∧
    exec (.setaddr none) s = .next { s with
      cycUnknown := true
      cycAbandon := true
      trace := .raised (.malformed s.cfg.cmdSetaddr (s.rxSize - 1 - s.rxReadPtr)) :: s.trace }

/-- R172: an unassigned device takes an assignable address: sense and LED become ready and REPORT_OK is queued, or lost with
`tx_ovf` set where the queue is full. The cursor moves past the command. The driver calls `set(true)` are those of R264,
recorded as log entries 7 and 12 say. -/
def Obligations.SetaddrIsAcceptedWhenUnassigned : Prop :=
  ∀ (s : State) (a : Byte), s.devAddr = 0 → s.cfg.addrMin ≤ a → a ≤ s.cfg.addrMax →
    ∃ t, exec (.setaddr (some a)) s = .next t ∧
      t = { s with
        devAddr := a
        senseReady := true
        ledReady := true
        rxReadPtr := s.rxReadPtr + 2
        txBuf := t.txBuf
        txReportSize := t.txReportSize
        txOvf := t.txOvf
        trace := (if s.ledReady then [] else [.driver (.ledSet true)]) ++
          ((if s.senseReady then [] else [.driver (.senseSet true)]) ++
            ((if s.txReportSize < s.cfg.qMax then [] else [.raised (.txOverflow s.cfg.reportOk)]) ++ s.trace)) } ∧
      (if s.txReportSize < s.cfg.qMax then
        t.byte .tx (2 + s.txReportSize) = s.cfg.reportOk ∧ t.txReportSize = s.txReportSize + 1 ∧ t.txOvf = s.txOvf ∧
          s.SameBytesBut (fun sp i => sp = .tx ∧ i = 2 + s.txReportSize) t
      else
        t.txReportSize = s.txReportSize ∧ t.txOvf = true ∧ s.SameBytesBut (fun _ _ => False) t)

/-- R173, R174: an assigned device, or an address outside the range, ignores the command: the address, sense and LED stay,
REPORT_PARAM_IGNORED is queued, or lost where the queue is full, and the cursor moves past the command. -/
def Obligations.SetaddrIsIgnoredOtherwise : Prop :=
  ∀ (s : State) (a : Byte), (s.devAddr ≠ 0 ∨ a < s.cfg.addrMin ∨ s.cfg.addrMax < a) →
    ∃ t, exec (.setaddr (some a)) s = .next t ∧
      t = { s with
        rxReadPtr := s.rxReadPtr + 2
        txBuf := t.txBuf
        txReportSize := t.txReportSize
        txOvf := t.txOvf
        trace := (if s.txReportSize < s.cfg.qMax then [] else [.raised (.txOverflow s.cfg.reportParamIgnored)]) ++
          s.trace } ∧
      (if s.txReportSize < s.cfg.qMax then
        t.byte .tx (2 + s.txReportSize) = s.cfg.reportParamIgnored ∧ t.txReportSize = s.txReportSize + 1 ∧
          t.txOvf = s.txOvf ∧ s.SameBytesBut (fun sp i => sp = .tx ∧ i = 2 + s.txReportSize) t
      else
        t.txReportSize = s.txReportSize ∧ t.txOvf = true ∧ s.SameBytesBut (fun _ _ => False) t)

/-- R175, R228: RETRY with a retained response discards the cycle's reports and flags and offers the retained bytes again
from the first; the latch and the pending overflow are untouched. -/
def Obligations.RetryOffersTheRetainedResponse : Prop :=
  ∀ s : State, s.retValid = true → exec .retry s = .next { s with
    rxAvailable := false
    cmdOutstanding := false
    txReportSize := 1
    txOvf := false
    cycUnknown := false
    cycAbandon := false
    cycResetSeen := false
    txEmitPtr := 0
    txEmitting := true
    trace := .answered .none :: .raised (.retransmit s.retLen) :: s.trace }

/-- R175, R229: RETRY with nothing retained latches and emits a status-only response with the status the configuration
names. -/
def Obligations.RetryWithNothingRetainedSendsAStatus : Prop :=
  ∀ s : State, s.retValid = false →
    let status := match s.cfg.retryEmptyStatus with
      | .statusUnknown => s.cfg.statusUnknown
      | .statusOverflow => s.cfg.statusOverflow
    let response := wireImage s.cfg [s.cfg.hostAddr, 0x02, status, sum8 [s.cfg.hostAddr, 0x02, status]]
    ∃ t, exec .retry s = .next t ∧ t.bytes .ret 0 response.length = response ∧
      s.SameBytesBut (fun sp i => sp = .ret ∧ i < response.length) t ∧
      t = { s with
        rxAvailable := false
        cmdOutstanding := false
        txReportSize := 1
        txOvf := false
        cycUnknown := false
        cycAbandon := false
        cycResetSeen := false
        retBuf := t.retBuf
        retLen := response.length
        retValid := true
        txEmitPtr := 0
        txEmitting := true
        trace := .answered .none :: .raised .retryEmpty :: s.trace }

/-- R176: an opaque command is handed out with the whole remaining window as its length. -/
def Obligations.OpaqueCommandIsHandedOut : Prop :=
  ∀ (s : State) (op : Byte), exec (.opaqueCmd op) s = .next { s with
    cmdOutstanding := true
    trace := .answered (.cmd (s.rxSize - 1 - s.rxReadPtr)) :: s.trace }

/-- R44, R74: `CMD_BYTE(i)` reads the window of the command handed out, and is refused outside it. -/
def Obligations.CmdByteReadsTheWindow : Prop :=
  ∀ (s : State) (i : Nat), s.Inv →
    (s.rxAvailable = true ∧ s.cmdOutstanding = true ∧ i < s.rxSize - 1 - s.rxReadPtr →
      cmdByte s i = .ok (s.byte .rx (s.rxReadPtr + i))) ∧
    (¬ (s.rxAvailable = true ∧ s.cmdOutstanding = true ∧ i < s.rxSize - 1 - s.rxReadPtr) →
      cmdByte s i = .error (.cmdByteOutsideWindow i))

/-- R178: the command GET_NEXT hands out never begins with one of the core's opcodes. -/
def Obligations.CoreOpcodesAreNeverHandedOut : Prop :=
  ∀ s t : State, s.cmdOutstanding = false → exec .getNext s = .next t → t.cmdOutstanding = true →
    t.headOpcode ≠ t.cfg.cmdReset ∧ t.headOpcode ≠ t.cfg.cmdSetaddr ∧ t.headOpcode ≠ t.cfg.cmdRetry

/-- R162, R163: CONSUME ends the command handed out; in range the cursor moves by `n`, out of range `cyc_unknown` and
`cyc_abandon` are set and the cursor stays. -/
def Obligations.ConsumeMovesTheCursorOrAbandons : Prop :=
  ∀ (s : State) (n : Byte), s.enabled = true → s.rxAvailable = true → s.cmdOutstanding = true →
    exec (.consume n) s =
      if 1 ≤ n.toNat ∧ n.toNat ≤ s.rxSize - 1 - s.rxReadPtr then
        .next { s with
          cmdOutstanding := false
          rxReadPtr := s.rxReadPtr + n.toNat
          trace := .answered .none :: s.trace }
      else
        .next { s with
          cmdOutstanding := false
          cycUnknown := true
          cycAbandon := true
          trace := .answered .none :: .raised (.badConsume n (s.rxSize - 1 - s.rxReadPtr)) :: s.trace }

/-- R164: UNKNOWN_CMD gives the command up and sets `cyc_unknown` and `cyc_abandon`; the reports already pushed stay. -/
def Obligations.UnknownCmdAbandonsTheFrame : Prop :=
  ∀ s : State, s.enabled = true → s.rxAvailable = true → s.cmdOutstanding = true → s.rxReadPtr < s.cfg.rxCap →
    exec .unknownCmd s = .next { s with
      cmdOutstanding := false
      cycUnknown := true
      cycAbandon := true
      trace := .answered .none :: .raised (.unknownOpcode (s.byte .rx s.rxReadPtr)) :: s.trace }

/-- R160, R204, R308: a caller operation that the state gives no meaning has no effect and is recorded: CONSUME and
UNKNOWN_CMD with no command handed out, pushes with no frame available, and every operation but BEGIN and NOP while
disabled (U14 of 93_implementation_defined.md). -/
def Obligations.MeaninglessCallerOperationsAreIgnored : Prop :=
  ∀ (s : State) (b : Byte),
    (¬ (s.enabled = true ∧ s.rxAvailable = true ∧ s.cmdOutstanding = true) →
      exec (.consume b) s =
        .next { s with trace := .answered .none :: .raised (.callerProtocol .consume) :: s.trace } ∧
      exec .unknownCmd s =
        .next { s with trace := .answered .none :: .raised (.callerProtocol .unknownCmd) :: s.trace }) ∧
    (¬ (s.enabled = true ∧ s.rxAvailable = true) →
      exec (.pushReport b) s =
        .next { s with trace := .answered .none :: .raised (.callerProtocol .pushReport) :: s.trace } ∧
      exec (.pushData b) s =
        .next { s with trace := .answered .none :: .raised (.callerProtocol .pushData) :: s.trace }) ∧
    (s.enabled = false →
      exec .getNext s =
        .next { s with trace := .answered .none :: .raised (.callerProtocol .getNext) :: s.trace } ∧
      exec .endOp s =
        .next { s with trace := .answered .none :: .raised (.callerProtocol .endOp) :: s.trace })

/-- R177, S5 of 95_test_vectors.md: a frame of N opaque commands, each answered with one report code, any result bytes and
CONSUME of its length, gives exactly N CMD answers, with the windows from each command on, then NONE; and the response
carries the N reports in order, after whatever was queued before. No code is REPORT_PARAM_NORESP, which would abandon
the frame (R203). -/
def Obligations.MultiplexedFrameIsServedCommandByCommand : Prop :=
  ∀ (s : State) (vs : List Served), s.Inv → s.enabled = true → s.rxAvailable = true → s.cmdOutstanding = false →
    s.txEmitting = false → s.cycAbandon = false → (vs ≠ [] ∨ s.cycResetSeen = false) →
    s.window = vs.flatMap Served.command →
    (∀ v ∈ vs, headClassOf s.cfg v.opcode = .opaqueCmd ∧ v.code ≠ s.cfg.reportParamNoresp) →
    s.txReportSize + (vs.flatMap Served.report).length ≤ s.cfg.qMax →
    let reports := s.bytes .tx 3 (s.txReportSize - 1) ++ vs.flatMap Served.report
    ∃ t, runEvents (serveEvents vs) s = .next t ∧
      handedOut t.trace = handedOut s.trace ++ windowLengths vs ∧ (windowLengths vs).length = vs.length ∧
      t.trace.head? = some (.answered .none) ∧ t.rxAvailable = false ∧ t.txEmitting = true ∧
      t.bytes .ret 0 t.retLen = wireImage s.cfg (frameImage s.cfg.hostAddr (s.status :: reports))

/-! ## Report Aggregator -/

/-- R201, R203, R200: PUSH_REPORT queues its code behind the reports already queued, or drops it and sets `tx_ovf` where the
queue is full; REPORT_PARAM_NORESP sets `cyc_abandon` either way. -/
def Obligations.PushReportQueuesTheCode : Prop :=
  ∀ (s : State) (c : Byte), s.enabled = true → s.rxAvailable = true →
    ∃ t, exec (.pushReport c) s = .next t ∧
      t = { s with
        txBuf := t.txBuf
        txReportSize := t.txReportSize
        txOvf := t.txOvf
        cycAbandon := s.cycAbandon || c == s.cfg.reportParamNoresp
        trace := t.trace } ∧
      (if s.txReportSize < s.cfg.qMax then
        t.byte .tx (2 + s.txReportSize) = c ∧ t.txReportSize = s.txReportSize + 1 ∧ t.txOvf = s.txOvf ∧
          s.SameBytesBut (fun sp i => sp = .tx ∧ i = 2 + s.txReportSize) t ∧ t.trace = .answered .none :: s.trace
      else
        t.txReportSize = s.txReportSize ∧ t.txOvf = true ∧ s.SameBytesBut (fun _ _ => False) t ∧
          t.trace = .answered .none :: .raised (.txOverflow c) :: s.trace)

/-- R202, R200: PUSH_DATA queues its byte, whatever its value, or drops it and sets `tx_ovf` where the queue is full; it
abandons nothing. -/
def Obligations.PushDataQueuesTheByte : Prop :=
  ∀ (s : State) (b : Byte), s.enabled = true → s.rxAvailable = true →
    ∃ t, exec (.pushData b) s = .next t ∧
      t = { s with txBuf := t.txBuf, txReportSize := t.txReportSize, txOvf := t.txOvf, trace := t.trace } ∧
      (if s.txReportSize < s.cfg.qMax then
        t.byte .tx (2 + s.txReportSize) = b ∧ t.txReportSize = s.txReportSize + 1 ∧ t.txOvf = s.txOvf ∧
          s.SameBytesBut (fun sp i => sp = .tx ∧ i = 2 + s.txReportSize) t ∧ t.trace = .answered .none :: s.trace
      else
        t.txReportSize = s.txReportSize ∧ t.txOvf = true ∧ s.SameBytesBut (fun _ _ => False) t ∧
          t.trace = .answered .none :: .raised (.txOverflow b) :: s.trace)

/-- R205: after any pushes the queue holds the bytes in push order; beyond `Q_MAX - 1` of them the first `Q_MAX - 1` are kept
and `tx_ovf` is set. -/
def Obligations.QueueKeepsTheFirstBytesPushed : Prop :=
  ∀ (s : State) (pushes : List (Bool × Byte)), s.enabled = true → s.rxAvailable = true →
    1 ≤ s.txReportSize → s.txReportSize ≤ s.cfg.qMax →
    ∃ t, runEvents (pushEvents pushes) s = .next t ∧
      t.txReportSize = min (s.txReportSize + pushes.length) s.cfg.qMax ∧
      t.bytes .tx 3 (t.txReportSize - 1) =
        (s.bytes .tx 3 (s.txReportSize - 1) ++ pushes.map Prod.snd).take (s.cfg.qMax - 1) ∧
      (t.txOvf = true ↔ s.txOvf = true ∨ s.cfg.qMax < s.txReportSize + pushes.length)

/-! ## Frame Transmitter -/

/-- R240, R241: TX_EMIT emits the byte at the emission cursor and moves the cursor; the one that emits the last retained
byte ends the emission; with nothing to emit it is held and changes nothing. -/
def Obligations.TxEmitEmitsOneByte : Prop :=
  ∀ s : State,
    (s.txEmitting = true → s.txEmitPtr < s.cfg.retCap →
      exec .txEmit s = .next { s with
        txEmitPtr := s.txEmitPtr + 1
        txEmitting := decide (s.txEmitPtr + 1 ≠ s.retLen)
        trace := .emitted (s.byte .ret s.txEmitPtr) :: s.trace } ∧
      s.txValid = true ∧ s.txDe = true ∧ s.txData = s.byte .ret s.txEmitPtr) ∧
    (s.txEmitting = false → exec .txEmit s = .next s ∧ held .txEmit s = true ∧ s.txValid = false ∧ s.txDe = false)

/-- R227, R241, R351: taking every byte offered emits the retained response from the cursor to its end, one byte per
TX_EMIT, ends the emission, and leaves the latch for a later retry. -/
def Obligations.DrainEmitsTheRetainedResponse : Prop :=
  ∀ s : State, s.Inv → s.txEmitting = true →
    ∃ t, runEvents (drainEvents s) s = .next t ∧ (drainEvents s).length = s.retLen - s.txEmitPtr ∧
      emittedBytes t.trace = emittedBytes s.trace ++ s.bytes .ret s.txEmitPtr (s.retLen - s.txEmitPtr) ∧
      t = { s with txEmitPtr := s.retLen, txEmitting := false, trace := t.trace }

/-- R230, S4 of 95_test_vectors.md: two retries with no fresh flush between them, whatever else the agents do but BEGIN, END
and RST, offer byte-identical sequences. That no flush happened is read off the trace (log entry 7). -/
def Obligations.RetryIsIdempotent : Prop :=
  ∀ (s t u v : State) (between : List Instr) (new : List Note),
    exec .retry s = .next t → runEvents between t = .next u →
    (∀ i ∈ between, i ≠ .beginOp ∧ i ≠ .endOp ∧ i ≠ .rst) →
    u.trace = new ++ t.trace → (∀ status q, .raised (.responseFlushed status q) ∉ new) →
    exec .retry u = .next v →
    (t.txEmitting = true ∧ t.txEmitPtr = 0 ∧ v.txEmitting = true ∧ v.txEmitPtr = 0) ∧
      v.retLen = t.retLen ∧ v.bytes .ret 0 v.retLen = t.bytes .ret 0 t.retLen

/-- R231: the retry latch changes only by a flush or an empty retry, which the trace then records, or by BEGIN, END and
RST. -/
def Obligations.RetryLatchChangesOnlyWithAFreshResponse : Prop :=
  ∀ (s t : State) (i : Instr), exec i s = .next t → i ≠ .beginOp → i ≠ .endOp → i ≠ .rst →
    (t.retBuf = s.retBuf ∧ t.retLen = s.retLen ∧ t.retValid = s.retValid) ∨
    (∃ new, t.trace = new ++ s.trace ∧ (.raised .retryEmpty ∈ new ∨ ∃ st q, .raised (.responseFlushed st q) ∈ new))

/-- R243: an emission starts only in a GET_NEXT: no received frame, accepted or discarded, emits anything by itself. -/
def Obligations.EmissionStartsOnlyInGetNext : Prop :=
  ∀ (s t : State) (o : Offer), exec (decodeOffer s.cfg o) s = .next t → s.txEmitting = false → t.txEmitting = true →
    decodeOffer s.cfg o = .getNext

/-- R73: while a response is being emitted no port event but BEGIN, END and RST changes the bytes written to the latch or
its length. -/
def Obligations.ResponseInFlightIsNotRewritten : Prop :=
  ∀ (s t : State) (o : Offer), exec (decodeOffer s.cfg o) s = .next t → s.txEmitting = true →
    decodeOffer s.cfg o ≠ .beginOp → decodeOffer s.cfg o ≠ .endOp → decodeOffer s.cfg o ≠ .rst →
    t.retBuf = s.retBuf ∧ t.retLen = s.retLen

/-! ## Lifecycle and reset -/

/-- R263: NOP answers NONE and changes nothing, in every state, never held. -/
def Obligations.NopChangesNothing : Prop :=
  ∀ s : State, exec .nop s = .next { s with trace := .answered .none :: s.trace } ∧ held .nop s = false

/-- R330, R262, R49: RST in every state, and END while enabled, leave every register at its reset value; a running emission
stops at once. The buffers list nothing, so that every byte is unspecified (log entry 3), and the agents' offers stay
(log entry 5). END while disabled changes nothing (R160, R262; log entry 15), and in a good state every register has its
reset value then too. Neither is ever held. -/
def Obligations.RstAndEndLeaveTheResetState : Prop :=
  ∀ (s : State) (i : Instr), i = .rst ∨ i = .endOp →
    held i s = false ∧
    ((i = .rst ∨ s.enabled = true) → ∃ t, exec i s = .next t ∧
      t = { State.reset with cfg := s.cfg, draws := t.draws, offers := s.offers, trace := t.trace }) ∧
    (i = .endOp → s.enabled = false →
      exec i s = .next { s with trace := .answered .none :: .raised (.callerProtocol .endOp) :: s.trace } ∧
      (s.Inv → s = { State.reset with
        rxBuf := s.rxBuf
        txBuf := s.txBuf
        retBuf := s.retBuf
        cfg := s.cfg
        draws := s.draws
        offers := s.offers
        trace := s.trace }))

/-- R260, R261: BEGIN leaves every register at its reset value but `enabled`, and calls both drivers' `begin()`,
recorded sense before LED (log entry 7). -/
def Obligations.BeginEnablesFromTheResetState : Prop :=
  ∀ s : State, ∃ t, exec .beginOp s = .next t ∧ held .beginOp s = false ∧
    t = { State.reset with
      enabled := true, cfg := s.cfg, draws := t.draws, offers := s.offers, trace := t.trace } ∧
    ∃ calls, t.trace =
      .answered .none :: .driver .ledBegin :: .driver .senseBegin :: (calls ++ s.trace)

/-- R331, R160: while disabled every event but BEGIN and RST leaves the core as it is: received bytes are dropped, GET_NEXT
answers NONE, the other caller operations are ignored. -/
def Obligations.DisabledCoreIgnoresItsAgents : Prop :=
  ∀ (s : State) (o : Offer), s.Inv → s.enabled = false →
    decodeOffer s.cfg o ≠ .beginOp → decodeOffer s.cfg o ≠ .rst →
    ∃ t, exec (decodeOffer s.cfg o) s = .next t ∧ s.SameCore t ∧ t.cfg = s.cfg ∧ t.offers = s.offers ∧ t.draws = s.draws

/-- R29, R264: the address and the sense and LED registers change only by a RESET with its argument, by a SETADDR of an
assignable address, by a GET_NEXT that ran such a head, and by BEGIN, END and RST. A GET_NEXT ran the head at the `k`-th
two bytes from the cursor: it lies in DATA with its operand, and every head before it is a RESET or a SETADDR. -/
def Obligations.AddressAndReadyAreWrittenOnlyByTheseEvents : Prop :=
  ∀ (s t : State) (i : Instr), exec i s = .next t →
    (t.devAddr ≠ s.devAddr ∨ t.senseReady ≠ s.senseReady ∨ t.ledReady ≠ s.ledReady) →
    i = .reset (some s.cfg.resetArg) ∨ (∃ a, i = .setaddr (some a) ∧ s.devAddr = 0 ∧ s.cfg.addrInRange a = true) ∨
    (i = .getNext ∧ ∃ k, s.rxReadPtr + 2 * k + 1 < s.rxSize - 1 ∧
      (∀ j, j ≤ k → s.byte .rx (s.rxReadPtr + 2 * j) = s.cfg.cmdReset ∨
        s.byte .rx (s.rxReadPtr + 2 * j) = s.cfg.cmdSetaddr) ∧
      ((s.byte .rx (s.rxReadPtr + 2 * k) = s.cfg.cmdReset ∧
          s.byte .rx (s.rxReadPtr + 2 * k + 1) = s.cfg.resetArg) ∨
        (s.byte .rx (s.rxReadPtr + 2 * k) = s.cfg.cmdSetaddr ∧
          s.cfg.addrInRange (s.byte .rx (s.rxReadPtr + 2 * k + 1)) = true))) ∨
    i = .beginOp ∨ i = .endOp ∨ i = .rst

/-- R72, R71: while a frame is available no event but BEGIN, END and RST changes the bytes written to the receive buffer or
its size. -/
def Obligations.AvailableFrameIsStable : Prop :=
  ∀ (s t : State) (i : Instr), s.enabled = true → s.rxAvailable = true → exec i s = .next t →
    i ≠ .beginOp → i ≠ .endOp → i ≠ .rst → t.rxBuf = s.rxBuf ∧ t.rxSize = s.rxSize

/-- R60, R65: NOP, CONSUME, UNKNOWN_CMD, RX_MARK, TX_EMIT, RESET and OPAQUE store nothing: every byte of every buffer reads
as before. -/
def Obligations.NonStoringEventsKeepEveryByte : Prop :=
  ∀ (s t : State) (i : Instr),
    (i = .nop ∨ (∃ n, i = .consume n) ∨ i = .unknownCmd ∨ i = .rxMark ∨ i = .txEmit ∨ (∃ a, i = .reset a) ∨
      (∃ op, i = .opaqueCmd op)) →
    exec i s = .next t → ∀ sp k, t.byte sp k = s.byte sp k

/-- R21, R70: no event writes the configuration, and no event takes or adds an offer; only BEGIN, END and RST draw the
unwritten buffer bytes anew. The configuration and the offers in State, and the counter of draws, are the model's choice
(log entries 1, 5 and 4). -/
def Obligations.EventsKeepConfigurationAndOffers : Prop :=
  ∀ (s t : State) (i : Instr), exec i s = .next t → t.cfg = s.cfg ∧ t.offers = s.offers ∧
    (i ≠ .beginOp → i ≠ .endOp → i ≠ .rst → t.draws = s.draws)

/-! ## Steps, invariants and safety -/

/-- A step runs the decoded instruction: the first offer that does not wait transfers, behind any number of offers of other
agents that wait, and the step is its event in the state that offers the others. The list of offers and that a held one
waits in it are the model's choice (log entries 5 and 6). -/
def Obligations.StepRunsTheDecodedEvent : Prop :=
  ∀ (s : State) (waiting : List Offer) (o : Offer) (rest : List Offer) (i : Instr), s.cfg.wf = true →
    s.offers = waiting ++ o :: rest → s.AllWait waiting → (∀ p ∈ waiting, offerAgent p ≠ offerAgent o) →
    decode s.cfg (.port o) = .ok i → held i s = false →
    i.wf s.cfg = true ∧ step s = exec i { s with offers := waiting ++ rest }

/-- R121, R101, R10: a held offer stays first and keeps its place before later offers of its agent while another agent's
event happens. A free offer behind a held one of its own agent waits with it: a GET_NEXT that is held keeps the
operations behind it from happening. Where every offer waits no event happens and the state is unchanged. Log entries 5
and 6. -/
def Obligations.HeldOffersWait : Prop :=
  (∀ (s : State) (o p : Offer) (rest : List Offer), s.cfg.wf = true → s.offers = o :: p :: rest →
    held (decodeOffer s.cfg o) s = true → offerAgent p ≠ offerAgent o → held (decodeOffer s.cfg p) s = false →
    step s = exec (decodeOffer s.cfg p) { s with offers := o :: rest }) ∧
  (∀ (s : State) (o : Offer) (same : List Offer), s.cfg.wf = true → s.offers = o :: same →
    held (decodeOffer s.cfg o) s = true → (∀ p ∈ same, offerAgent p = offerAgent o) → step s = .next s) ∧
  (∀ s : State, s.cfg.wf = true → s.AllWait s.offers → step s = .next s)

/-- R106, R104: of the transfers one clock offers, RST is taken first, then the caller operation, then the received byte,
then the transmit transfer. The model has no clock: the list of offers (log entry 5) and the function `serialise`, which
lists one clock's transfers in that order (log entry 18), are its own, both DESIGN CHOICE. -/
def Obligations.TransfersOfOneClockAreSerialised : Prop :=
  ∀ (s : State) (w : CallerWord) (b : Byte) (rest : List Offer), s.cfg.wf = true →
    serialise ⟨true, some w, some b, true⟩ = [.rst, .callerOp w, .rxByte b, .txReady] ∧
    (s.offers = serialise ⟨true, some w, some b, true⟩ ++ rest →
      step s = exec .rst { s with offers := .callerOp w :: .rxByte b :: .txReady :: rest }) ∧
    (s.offers = serialise ⟨false, some w, some b, true⟩ ++ rest → held (decodeCaller w) s = false →
      step s = exec (decodeCaller w) { s with offers := .rxByte b :: .txReady :: rest }) ∧
    (s.offers = serialise ⟨false, none, some b, true⟩ ++ rest → held (decodeRx s.cfg b) s = false →
      step s = exec (decodeRx s.cfg b) { s with offers := .txReady :: rest }) ∧
    (s.offers = serialise ⟨false, none, none, true⟩ ++ rest → s.txEmitting = true →
      step s = exec .txEmit { s with offers := rest })

/-- R8: an ill-formed configuration is refused. -/
def Obligations.IllFormedConfigurationIsRefused : Prop :=
  ∀ s : State, s.cfg.wf = false → step s = .refused .illFormedConfig

/-- R49, R48: power-on with any well-formed configuration, and so reset, is a good state (log entry 21). -/
def Obligations.PowerOnSatisfiesTheInvariants : Prop :=
  State.reset.Inv ∧ ∀ (c : Config) (offers : List Offer), c.wf = true → (State.powerOn c offers).Inv

/-- R48: every step keeps the invariants (1) to (10) of the spec, (4) without the address filter, from every state that has
them with a well-formed configuration and buffers in canonical form (log entry 21). -/
def Obligations.EveryStepKeepsTheInvariants : Prop :=
  ∀ s t : State, s.Inv → step s = .next t → t.Inv

/-- R48: every good state is safe, that is the next step neither faults nor is refused, and its registers fit the widths of
R52; and every state reachable by any agents from power-on with any well-formed configuration is good. The filter of
clause (4) is stated by OnlyCheckedFramesBecomeAvailable (log entry 21). -/
def Obligations.ReachableStatesAreGoodAndSafe : Prop :=
  (∀ s : State, s.Inv → s.Safe ∧
    s.rxSize < 2 ^ 9 ∧ s.rxReadPtr < 2 ^ 9 ∧ s.txReportSize < 2 ^ 8 ∧ s.retLen < 2 ^ 10 ∧ s.txEmitPtr < 2 ^ 10) ∧
  ∀ s : State, Reachable s → s.Inv

/-- R48 (4), R27: a frame becomes available only in a receive event, and only if it passes the checksum and the address
filter of the state it completes in. -/
def Obligations.OnlyCheckedFramesBecomeAvailable : Prop :=
  ∀ (s t : State) (i : Instr), exec i s = .next t → s.rxAvailable = false → t.rxAvailable = true →
    (i = .rxSync ∨ ∃ b, i = .rxData b) ∧ t.rxSize = t.rxLen + 2 ∧
      sum8 (t.bytes .rx 0 (t.rxSize - 1)) = t.byte .rx (t.rxSize - 1) ∧ s.accepts (t.byte .rx 0) = true

/-! ## Outputs and driver calls -/

/-- R43, R306, R264: `cmd_pending` is high exactly while an enabled core has a frame available, rises only in a receive event
and falls only in GET_NEXT (a retry among its commands), END, RST, and BEGIN, which re-initialises (R260). `sense` and
`led` show their registers, in a good state whether an address is held. Each event, of whatever kind, calls `set(v)` of a
driver exactly if it changes the driver's register, with the new value; sense is recorded before LED (log entries 7 and
12). -/
def Obligations.OutputsFollowTheRegisters : Prop :=
  ∀ s : State,
    (s.cmdPending = true ↔ s.enabled = true ∧ s.rxAvailable = true) ∧
    s.sense = s.senseReady ∧ s.led = s.ledReady ∧
    (s.Inv → s.sense = (s.devAddr != 0) ∧ s.led = (s.devAddr != 0)) ∧
    ∀ (t : State) (i : Instr), exec i s = .next t →
      (s.cmdPending = false → t.cmdPending = true → i = .rxSync ∨ ∃ b, i = .rxData b) ∧
      (s.cmdPending = true → t.cmdPending = false →
        i = .getNext ∨ i = .retry ∨ i = .beginOp ∨ i = .endOp ∨ i = .rst) ∧
      setCalls t.trace = setCalls s.trace ++
        (if t.senseReady = s.senseReady then [] else [.senseSet t.senseReady]) ++
        (if t.ledReady = s.ledReady then [] else [.ledSet t.ledReady])
end

