-- ==== Sys2Proof/Laws/Config.lean ====
section
/-! SUPPORT. What a well-formed configuration gives (00_scope.md R8), clause by clause. -/

namespace Sys2Proof

theorem Config.wf_iff (c : Config) :
    c.wf = true ↔ c.markersDiffer = true ∧ c.decrementsSafe = true ∧ c.addressesOk = true ∧ c.opcodesDistinct = true ∧
      c.capacitiesOk = true ∧ c.derivedOk = true ∧ c.codesDistinct = true := by
  simp only [Config.wf, Bool.and_eq_true, and_assoc]

/-- R8 (1), (2). -/
theorem Config.wf_markers {c : Config} (h : c.wf = true) :
    c.sync ≠ c.esc ∧ c.sync - 1 ≠ c.sync ∧ c.sync - 1 ≠ c.esc ∧ c.esc - 1 ≠ c.sync ∧ c.esc - 1 ≠ c.esc := by
  obtain ⟨h1, h2, -⟩ := c.wf_iff.1 h
  simp only [Config.markersDiffer, Config.decrementsSafe, Bool.and_eq_true, bne_iff_ne] at h1 h2
  exact ⟨h1, h2.1.1, h2.1.2, h2.2.1, h2.2.2⟩

/-- R8 (4). -/
theorem Config.wf_opcodes {c : Config} (h : c.wf = true) :
    c.cmdReset ≠ c.cmdSetaddr ∧ c.cmdReset ≠ c.cmdRetry ∧ c.cmdSetaddr ≠ c.cmdRetry := by
  have h4 := (c.wf_iff.1 h).2.2.2.1
  simp only [Config.opcodesDistinct, Bool.and_eq_true, bne_iff_ne] at h4
  exact ⟨h4.1.1, h4.1.2, h4.2⟩

/-- R8 (5), (6). -/
theorem Config.wf_capacities {c : Config} (h : c.wf = true) :
    (3 ≤ c.rxCap ∧ c.rxCap ≤ 256) ∧ (4 ≤ c.txCap ∧ c.txCap ≤ 256) ∧ c.qMax = c.txCap - 3 ∧
      c.retCap = 1 + 2 * c.txCap := by
  obtain ⟨-, -, -, -, h5, h6, -⟩ := c.wf_iff.1 h
  simp only [Config.capacitiesOk, Config.derivedOk, Bool.and_eq_true, decide_eq_true_eq] at h5 h6
  exact ⟨h5.1, h5.2, h6⟩

end Sys2Proof
end

