-- ==== Sys2Proof/Laws/Memory.lean ====
section
/-! SUPPORT. The laws of the buffers: read after write, the frame of a write, and the canonical form every write
keeps. -/

namespace Sys2Proof.Machine

theorem Memory.read_write_same (m : Memory) (i : Nat) (v : Byte) : (m.write i v).read i = some v := by
  induction m with
  | nil => simp [Memory.write, Memory.read]
  | cons c m ih =>
    obtain ⟨j, w⟩ := c
    by_cases h1 : i < j
    · simp [Memory.write, Memory.read, h1]
    · by_cases h2 : i = j
      · simp [Memory.write, Memory.read, h2]
      · simp [Memory.write, Memory.read, h1, h2, ih]

theorem Memory.read_write_other (m : Memory) {i j : Nat} (v : Byte) (h : j ≠ i) :
    (m.write i v).read j = m.read j := by
  induction m with
  | nil => simp [Memory.write, Memory.read, h]
  | cons c m ih =>
    obtain ⟨k, w⟩ := c
    by_cases h1 : i < k
    · simp [Memory.write, Memory.read, h1, h]
    · by_cases h2 : i = k
      · subst h2; simp [Memory.write, Memory.read, h]
      · simp [Memory.write, Memory.read, h1, h2, ih]

/-- A write does not change what lies outside the bytes it stores. -/
theorem Memory.read_writeList_other (vs : List Byte) : ∀ (m : Memory) {i j : Nat},
    (j < i ∨ i + vs.length ≤ j) → (m.writeList i vs).read j = m.read j := by
  induction vs with
  | nil => intro m i j _; rfl
  | cons v vs ih =>
    intro m i j h
    have hl : (v :: vs).length = vs.length + 1 := rfl
    rw [Memory.writeList, ih _ (by omega), Memory.read_write_other _ _ (by omega)]

theorem Memory.read_writeList_same (vs : List Byte) : ∀ (m : Memory) {i k : Nat} (h : k < vs.length),
    (m.writeList i vs).read (i + k) = some vs[k] := by
  induction vs with
  | nil => intro m i k h; simp at h
  | cons v vs ih =>
    intro m i k h
    rw [Memory.writeList]
    cases k with
    | zero => rw [Memory.read_writeList_other _ _ (by omega)]; simp [Memory.read_write_same]
    | succ k =>
      have := ih (m.write i v) (i := i + 1) (k := k) (by simpa using h)
      rw [show i + (k + 1) = i + 1 + k by omega, this]; simp

theorem Memory.wf_tail {c : Host.Cell} {m : Memory} (h : Memory.wf (c :: m) = true) : Memory.wf m = true := by
  cases m with
  | nil => rfl
  | cons d m => simp [Memory.wf] at h; exact h.2

/-- The first address of what a write leaves. -/
theorem Memory.write_head (m : Memory) (i : Nat) (v : Byte) :
    ∃ w rest, m.write i v = (match m with | [] => i | (j, _) :: _ => min i j, w) :: rest := by
  cases m with
  | nil => exact ⟨v, [], rfl⟩
  | cons c m =>
    obtain ⟨j, w⟩ := c
    by_cases h1 : i < j
    · exact ⟨v, (j, w) :: m, by simp [Memory.write, h1]; omega⟩
    · by_cases h2 : i = j
      · exact ⟨v, m, by simp [Memory.write, h2]⟩
      · exact ⟨w, Memory.write m i v, by simp [Memory.write, h1, h2]; omega⟩

/-- Every write keeps the canonical form. -/
theorem Memory.write_wf (m : Memory) (i : Nat) (v : Byte) (h : m.wf = true) : (m.write i v).wf = true := by
  induction m with
  | nil => rfl
  | cons c m ih =>
    obtain ⟨j, w⟩ := c
    by_cases h1 : i < j
    · simp [Memory.write, Memory.wf, h1, h]
    · by_cases h2 : i = j
      · subst h2
        cases m with
        | nil => simp [Memory.write, Memory.wf]
        | cons d m => obtain ⟨k, u⟩ := d; simpa [Memory.write, Memory.wf] using h
      · have hm := ih (Memory.wf_tail h)
        obtain ⟨u, rest, hw⟩ := Memory.write_head m i v
        simp only [Memory.write, h1, h2, if_false]
        rw [hw] at hm ⊢
        cases m with
        | nil => simp_all [Memory.wf]; omega
        | cons d m =>
          obtain ⟨k, u'⟩ := d
          simp only [Memory.wf, Bool.and_eq_true, decide_eq_true_eq] at h ⊢
          exact ⟨by simp; omega, hm⟩

theorem Memory.writeList_wf (vs : List Byte) : ∀ (m : Memory) (i : Nat), m.wf = true → (m.writeList i vs).wf = true := by
  induction vs with
  | nil => intro m i h; exact h
  | cons v vs ih => intro m i h; exact ih _ _ (Memory.write_wf _ _ _ h)

/-- A write inside the space lists no index outside it. -/
theorem Memory.write_within {cap : Nat} (m : Memory) {i : Nat} (v : Byte) (hi : i < cap) (h : m.within cap = true) :
    (m.write i v).within cap = true := by
  induction m with
  | nil => simp [Memory.write, Memory.within, hi]
  | cons c m ih =>
    obtain ⟨j, w⟩ := c
    simp only [Memory.within, List.all_cons, Bool.and_eq_true, decide_eq_true_eq] at h ih
    by_cases h1 : i < j
    · simp only [Memory.write, h1, if_true, Memory.within, List.all_cons, Bool.and_eq_true, decide_eq_true_eq]
      exact ⟨hi, h⟩
    · by_cases h2 : i = j
      · simp only [Memory.write, h2, Nat.lt_irrefl, if_false, if_true, Memory.within, List.all_cons, Bool.and_eq_true,
          decide_eq_true_eq]
        exact ⟨h.1, h.2⟩
      · simp only [Memory.write, h1, h2, if_false, Memory.within, List.all_cons, Bool.and_eq_true, decide_eq_true_eq]
        exact ⟨h.1, ih h.2⟩

theorem Memory.writeList_within {cap : Nat} (vs : List Byte) : ∀ (m : Memory) {i : Nat}, i + vs.length ≤ cap →
    m.within cap = true → (m.writeList i vs).within cap = true := by
  induction vs with
  | nil => intro m i _ h; exact h
  | cons v vs ih =>
    intro m i hi h
    have hl : (v :: vs).length = vs.length + 1 := rfl
    exact ih _ (by omega) (Memory.write_within _ _ (by omega) h)

end Sys2Proof.Machine
end

