-- ==== Sys2Proof/Laws/State.lean ====
section
/-! SUPPORT. The updates of State, field by field: what each named update leaves in each field, true by rfl. The updates
whose effect is computed (store, append, flush) have their laws in Laws/Ops.lean. -/

namespace Sys2Proof.Machine

/-! ### `State.note`: only the trace grows -/

@[simp] theorem State.note_enabled (s : State) (n : Note) : (s.note n).enabled = s.enabled := rfl
@[simp] theorem State.note_rxBuf (s : State) (n : Note) : (s.note n).rxBuf = s.rxBuf := rfl
@[simp] theorem State.note_rxSize (s : State) (n : Note) : (s.note n).rxSize = s.rxSize := rfl
@[simp] theorem State.note_rxReceiving (s : State) (n : Note) : (s.note n).rxReceiving = s.rxReceiving := rfl
@[simp] theorem State.note_rxEscaping (s : State) (n : Note) : (s.note n).rxEscaping = s.rxEscaping := rfl
@[simp] theorem State.note_rxAvailable (s : State) (n : Note) : (s.note n).rxAvailable = s.rxAvailable := rfl
@[simp] theorem State.note_rxOvfPending (s : State) (n : Note) : (s.note n).rxOvfPending = s.rxOvfPending := rfl
@[simp] theorem State.note_devAddr (s : State) (n : Note) : (s.note n).devAddr = s.devAddr := rfl
@[simp] theorem State.note_senseReady (s : State) (n : Note) : (s.note n).senseReady = s.senseReady := rfl
@[simp] theorem State.note_ledReady (s : State) (n : Note) : (s.note n).ledReady = s.ledReady := rfl
@[simp] theorem State.note_rxReadPtr (s : State) (n : Note) : (s.note n).rxReadPtr = s.rxReadPtr := rfl
@[simp] theorem State.note_cmdOutstanding (s : State) (n : Note) : (s.note n).cmdOutstanding = s.cmdOutstanding := rfl
@[simp] theorem State.note_cycAbandon (s : State) (n : Note) : (s.note n).cycAbandon = s.cycAbandon := rfl
@[simp] theorem State.note_cycUnknown (s : State) (n : Note) : (s.note n).cycUnknown = s.cycUnknown := rfl
@[simp] theorem State.note_cycResetSeen (s : State) (n : Note) : (s.note n).cycResetSeen = s.cycResetSeen := rfl
@[simp] theorem State.note_txBuf (s : State) (n : Note) : (s.note n).txBuf = s.txBuf := rfl
@[simp] theorem State.note_txReportSize (s : State) (n : Note) : (s.note n).txReportSize = s.txReportSize := rfl
@[simp] theorem State.note_txOvf (s : State) (n : Note) : (s.note n).txOvf = s.txOvf := rfl
@[simp] theorem State.note_retBuf (s : State) (n : Note) : (s.note n).retBuf = s.retBuf := rfl
@[simp] theorem State.note_retLen (s : State) (n : Note) : (s.note n).retLen = s.retLen := rfl
@[simp] theorem State.note_retValid (s : State) (n : Note) : (s.note n).retValid = s.retValid := rfl
@[simp] theorem State.note_txEmitPtr (s : State) (n : Note) : (s.note n).txEmitPtr = s.txEmitPtr := rfl
@[simp] theorem State.note_txEmitting (s : State) (n : Note) : (s.note n).txEmitting = s.txEmitting := rfl
@[simp] theorem State.note_cfg (s : State) (n : Note) : (s.note n).cfg = s.cfg := rfl
@[simp] theorem State.note_draws (s : State) (n : Note) : (s.note n).draws = s.draws := rfl
@[simp] theorem State.note_offers (s : State) (n : Note) : (s.note n).offers = s.offers := rfl
@[simp] theorem State.note_trace (s : State) (n : Note) : (s.note n).trace = n :: s.trace := rfl

/-! ### `State.raise`: a condition changes nothing but the trace (R300, R309) -/

@[simp] theorem State.raise_enabled (s : State) (c : Condition) : (s.raise c).enabled = s.enabled := rfl
@[simp] theorem State.raise_rxBuf (s : State) (c : Condition) : (s.raise c).rxBuf = s.rxBuf := rfl
@[simp] theorem State.raise_rxSize (s : State) (c : Condition) : (s.raise c).rxSize = s.rxSize := rfl
@[simp] theorem State.raise_rxReceiving (s : State) (c : Condition) : (s.raise c).rxReceiving = s.rxReceiving := rfl
@[simp] theorem State.raise_rxEscaping (s : State) (c : Condition) : (s.raise c).rxEscaping = s.rxEscaping := rfl
@[simp] theorem State.raise_rxAvailable (s : State) (c : Condition) : (s.raise c).rxAvailable = s.rxAvailable := rfl
@[simp] theorem State.raise_rxOvfPending (s : State) (c : Condition) : (s.raise c).rxOvfPending = s.rxOvfPending := rfl
@[simp] theorem State.raise_devAddr (s : State) (c : Condition) : (s.raise c).devAddr = s.devAddr := rfl
@[simp] theorem State.raise_senseReady (s : State) (c : Condition) : (s.raise c).senseReady = s.senseReady := rfl
@[simp] theorem State.raise_ledReady (s : State) (c : Condition) : (s.raise c).ledReady = s.ledReady := rfl
@[simp] theorem State.raise_rxReadPtr (s : State) (c : Condition) : (s.raise c).rxReadPtr = s.rxReadPtr := rfl
@[simp] theorem State.raise_cmdOutstanding (s : State) (c : Condition) : (s.raise c).cmdOutstanding = s.cmdOutstanding := rfl
@[simp] theorem State.raise_cycAbandon (s : State) (c : Condition) : (s.raise c).cycAbandon = s.cycAbandon := rfl
@[simp] theorem State.raise_cycUnknown (s : State) (c : Condition) : (s.raise c).cycUnknown = s.cycUnknown := rfl
@[simp] theorem State.raise_cycResetSeen (s : State) (c : Condition) : (s.raise c).cycResetSeen = s.cycResetSeen := rfl
@[simp] theorem State.raise_txBuf (s : State) (c : Condition) : (s.raise c).txBuf = s.txBuf := rfl
@[simp] theorem State.raise_txReportSize (s : State) (c : Condition) : (s.raise c).txReportSize = s.txReportSize := rfl
@[simp] theorem State.raise_txOvf (s : State) (c : Condition) : (s.raise c).txOvf = s.txOvf := rfl
@[simp] theorem State.raise_retBuf (s : State) (c : Condition) : (s.raise c).retBuf = s.retBuf := rfl
@[simp] theorem State.raise_retLen (s : State) (c : Condition) : (s.raise c).retLen = s.retLen := rfl
@[simp] theorem State.raise_retValid (s : State) (c : Condition) : (s.raise c).retValid = s.retValid := rfl
@[simp] theorem State.raise_txEmitPtr (s : State) (c : Condition) : (s.raise c).txEmitPtr = s.txEmitPtr := rfl
@[simp] theorem State.raise_txEmitting (s : State) (c : Condition) : (s.raise c).txEmitting = s.txEmitting := rfl
@[simp] theorem State.raise_cfg (s : State) (c : Condition) : (s.raise c).cfg = s.cfg := rfl
@[simp] theorem State.raise_draws (s : State) (c : Condition) : (s.raise c).draws = s.draws := rfl
@[simp] theorem State.raise_offers (s : State) (c : Condition) : (s.raise c).offers = s.offers := rfl
@[simp] theorem State.raise_trace (s : State) (c : Condition) : (s.raise c).trace = .raised c :: s.trace := rfl

/-! ### `State.answer` -/

@[simp] theorem State.answer_enabled (s : State) (r : Response) : (s.answer r).enabled = s.enabled := rfl
@[simp] theorem State.answer_rxBuf (s : State) (r : Response) : (s.answer r).rxBuf = s.rxBuf := rfl
@[simp] theorem State.answer_rxSize (s : State) (r : Response) : (s.answer r).rxSize = s.rxSize := rfl
@[simp] theorem State.answer_rxReceiving (s : State) (r : Response) : (s.answer r).rxReceiving = s.rxReceiving := rfl
@[simp] theorem State.answer_rxEscaping (s : State) (r : Response) : (s.answer r).rxEscaping = s.rxEscaping := rfl
@[simp] theorem State.answer_rxAvailable (s : State) (r : Response) : (s.answer r).rxAvailable = s.rxAvailable := rfl
@[simp] theorem State.answer_rxOvfPending (s : State) (r : Response) : (s.answer r).rxOvfPending = s.rxOvfPending := rfl
@[simp] theorem State.answer_devAddr (s : State) (r : Response) : (s.answer r).devAddr = s.devAddr := rfl
@[simp] theorem State.answer_senseReady (s : State) (r : Response) : (s.answer r).senseReady = s.senseReady := rfl
@[simp] theorem State.answer_ledReady (s : State) (r : Response) : (s.answer r).ledReady = s.ledReady := rfl
@[simp] theorem State.answer_rxReadPtr (s : State) (r : Response) : (s.answer r).rxReadPtr = s.rxReadPtr := rfl
@[simp] theorem State.answer_cmdOutstanding (s : State) (r : Response) : (s.answer r).cmdOutstanding = s.cmdOutstanding := rfl
@[simp] theorem State.answer_cycAbandon (s : State) (r : Response) : (s.answer r).cycAbandon = s.cycAbandon := rfl
@[simp] theorem State.answer_cycUnknown (s : State) (r : Response) : (s.answer r).cycUnknown = s.cycUnknown := rfl
@[simp] theorem State.answer_cycResetSeen (s : State) (r : Response) : (s.answer r).cycResetSeen = s.cycResetSeen := rfl
@[simp] theorem State.answer_txBuf (s : State) (r : Response) : (s.answer r).txBuf = s.txBuf := rfl
@[simp] theorem State.answer_txReportSize (s : State) (r : Response) : (s.answer r).txReportSize = s.txReportSize := rfl
@[simp] theorem State.answer_txOvf (s : State) (r : Response) : (s.answer r).txOvf = s.txOvf := rfl
@[simp] theorem State.answer_retBuf (s : State) (r : Response) : (s.answer r).retBuf = s.retBuf := rfl
@[simp] theorem State.answer_retLen (s : State) (r : Response) : (s.answer r).retLen = s.retLen := rfl
@[simp] theorem State.answer_retValid (s : State) (r : Response) : (s.answer r).retValid = s.retValid := rfl
@[simp] theorem State.answer_txEmitPtr (s : State) (r : Response) : (s.answer r).txEmitPtr = s.txEmitPtr := rfl
@[simp] theorem State.answer_txEmitting (s : State) (r : Response) : (s.answer r).txEmitting = s.txEmitting := rfl
@[simp] theorem State.answer_cfg (s : State) (r : Response) : (s.answer r).cfg = s.cfg := rfl
@[simp] theorem State.answer_draws (s : State) (r : Response) : (s.answer r).draws = s.draws := rfl
@[simp] theorem State.answer_offers (s : State) (r : Response) : (s.answer r).offers = s.offers := rfl
@[simp] theorem State.answer_trace (s : State) (r : Response) : (s.answer r).trace = .answered r :: s.trace := rfl

/-! ### `State.emit` -/

@[simp] theorem State.emit_enabled (s : State) (b : Byte) : (s.emit b).enabled = s.enabled := rfl
@[simp] theorem State.emit_rxBuf (s : State) (b : Byte) : (s.emit b).rxBuf = s.rxBuf := rfl
@[simp] theorem State.emit_rxSize (s : State) (b : Byte) : (s.emit b).rxSize = s.rxSize := rfl
@[simp] theorem State.emit_rxReceiving (s : State) (b : Byte) : (s.emit b).rxReceiving = s.rxReceiving := rfl
@[simp] theorem State.emit_rxEscaping (s : State) (b : Byte) : (s.emit b).rxEscaping = s.rxEscaping := rfl
@[simp] theorem State.emit_rxAvailable (s : State) (b : Byte) : (s.emit b).rxAvailable = s.rxAvailable := rfl
@[simp] theorem State.emit_rxOvfPending (s : State) (b : Byte) : (s.emit b).rxOvfPending = s.rxOvfPending := rfl
@[simp] theorem State.emit_devAddr (s : State) (b : Byte) : (s.emit b).devAddr = s.devAddr := rfl
@[simp] theorem State.emit_senseReady (s : State) (b : Byte) : (s.emit b).senseReady = s.senseReady := rfl
@[simp] theorem State.emit_ledReady (s : State) (b : Byte) : (s.emit b).ledReady = s.ledReady := rfl
@[simp] theorem State.emit_rxReadPtr (s : State) (b : Byte) : (s.emit b).rxReadPtr = s.rxReadPtr := rfl
@[simp] theorem State.emit_cmdOutstanding (s : State) (b : Byte) : (s.emit b).cmdOutstanding = s.cmdOutstanding := rfl
@[simp] theorem State.emit_cycAbandon (s : State) (b : Byte) : (s.emit b).cycAbandon = s.cycAbandon := rfl
@[simp] theorem State.emit_cycUnknown (s : State) (b : Byte) : (s.emit b).cycUnknown = s.cycUnknown := rfl
@[simp] theorem State.emit_cycResetSeen (s : State) (b : Byte) : (s.emit b).cycResetSeen = s.cycResetSeen := rfl
@[simp] theorem State.emit_txBuf (s : State) (b : Byte) : (s.emit b).txBuf = s.txBuf := rfl
@[simp] theorem State.emit_txReportSize (s : State) (b : Byte) : (s.emit b).txReportSize = s.txReportSize := rfl
@[simp] theorem State.emit_txOvf (s : State) (b : Byte) : (s.emit b).txOvf = s.txOvf := rfl
@[simp] theorem State.emit_retBuf (s : State) (b : Byte) : (s.emit b).retBuf = s.retBuf := rfl
@[simp] theorem State.emit_retLen (s : State) (b : Byte) : (s.emit b).retLen = s.retLen := rfl
@[simp] theorem State.emit_retValid (s : State) (b : Byte) : (s.emit b).retValid = s.retValid := rfl
@[simp] theorem State.emit_txEmitPtr (s : State) (b : Byte) : (s.emit b).txEmitPtr = s.txEmitPtr := rfl
@[simp] theorem State.emit_txEmitting (s : State) (b : Byte) : (s.emit b).txEmitting = s.txEmitting := rfl
@[simp] theorem State.emit_cfg (s : State) (b : Byte) : (s.emit b).cfg = s.cfg := rfl
@[simp] theorem State.emit_draws (s : State) (b : Byte) : (s.emit b).draws = s.draws := rfl
@[simp] theorem State.emit_offers (s : State) (b : Byte) : (s.emit b).offers = s.offers := rfl
@[simp] theorem State.emit_trace (s : State) (b : Byte) : (s.emit b).trace = .emitted b :: s.trace := rfl

/-! ### `State.noteReady`: the driver calls of an event change nothing but the trace (R264) -/

@[simp] theorem State.noteReady_enabled (s t : State) : (s.noteReady t).enabled = t.enabled := rfl
@[simp] theorem State.noteReady_rxBuf (s t : State) : (s.noteReady t).rxBuf = t.rxBuf := rfl
@[simp] theorem State.noteReady_rxSize (s t : State) : (s.noteReady t).rxSize = t.rxSize := rfl
@[simp] theorem State.noteReady_rxReceiving (s t : State) : (s.noteReady t).rxReceiving = t.rxReceiving := rfl
@[simp] theorem State.noteReady_rxEscaping (s t : State) : (s.noteReady t).rxEscaping = t.rxEscaping := rfl
@[simp] theorem State.noteReady_rxAvailable (s t : State) : (s.noteReady t).rxAvailable = t.rxAvailable := rfl
@[simp] theorem State.noteReady_rxOvfPending (s t : State) : (s.noteReady t).rxOvfPending = t.rxOvfPending := rfl
@[simp] theorem State.noteReady_devAddr (s t : State) : (s.noteReady t).devAddr = t.devAddr := rfl
@[simp] theorem State.noteReady_senseReady (s t : State) : (s.noteReady t).senseReady = t.senseReady := rfl
@[simp] theorem State.noteReady_ledReady (s t : State) : (s.noteReady t).ledReady = t.ledReady := rfl
@[simp] theorem State.noteReady_rxReadPtr (s t : State) : (s.noteReady t).rxReadPtr = t.rxReadPtr := rfl
@[simp] theorem State.noteReady_cmdOutstanding (s t : State) : (s.noteReady t).cmdOutstanding = t.cmdOutstanding := rfl
@[simp] theorem State.noteReady_cycAbandon (s t : State) : (s.noteReady t).cycAbandon = t.cycAbandon := rfl
@[simp] theorem State.noteReady_cycUnknown (s t : State) : (s.noteReady t).cycUnknown = t.cycUnknown := rfl
@[simp] theorem State.noteReady_cycResetSeen (s t : State) : (s.noteReady t).cycResetSeen = t.cycResetSeen := rfl
@[simp] theorem State.noteReady_txBuf (s t : State) : (s.noteReady t).txBuf = t.txBuf := rfl
@[simp] theorem State.noteReady_txReportSize (s t : State) : (s.noteReady t).txReportSize = t.txReportSize := rfl
@[simp] theorem State.noteReady_txOvf (s t : State) : (s.noteReady t).txOvf = t.txOvf := rfl
@[simp] theorem State.noteReady_retBuf (s t : State) : (s.noteReady t).retBuf = t.retBuf := rfl
@[simp] theorem State.noteReady_retLen (s t : State) : (s.noteReady t).retLen = t.retLen := rfl
@[simp] theorem State.noteReady_retValid (s t : State) : (s.noteReady t).retValid = t.retValid := rfl
@[simp] theorem State.noteReady_txEmitPtr (s t : State) : (s.noteReady t).txEmitPtr = t.txEmitPtr := rfl
@[simp] theorem State.noteReady_txEmitting (s t : State) : (s.noteReady t).txEmitting = t.txEmitting := rfl
@[simp] theorem State.noteReady_cfg (s t : State) : (s.noteReady t).cfg = t.cfg := rfl
@[simp] theorem State.noteReady_draws (s t : State) : (s.noteReady t).draws = t.draws := rfl
@[simp] theorem State.noteReady_offers (s t : State) : (s.noteReady t).offers = t.offers := rfl
@[simp] theorem State.noteReady_trace (s t : State) : (s.noteReady t).trace = s.readyCalls t ++ t.trace := rfl

/-! ### `State.driveReady` (R264) -/

@[simp] theorem State.driveReady_enabled (s : State) (v : Bool) : (s.driveReady v).enabled = s.enabled := rfl
@[simp] theorem State.driveReady_rxBuf (s : State) (v : Bool) : (s.driveReady v).rxBuf = s.rxBuf := rfl
@[simp] theorem State.driveReady_rxSize (s : State) (v : Bool) : (s.driveReady v).rxSize = s.rxSize := rfl
@[simp] theorem State.driveReady_rxReceiving (s : State) (v : Bool) : (s.driveReady v).rxReceiving = s.rxReceiving := rfl
@[simp] theorem State.driveReady_rxEscaping (s : State) (v : Bool) : (s.driveReady v).rxEscaping = s.rxEscaping := rfl
@[simp] theorem State.driveReady_rxAvailable (s : State) (v : Bool) : (s.driveReady v).rxAvailable = s.rxAvailable := rfl
@[simp] theorem State.driveReady_rxOvfPending (s : State) (v : Bool) : (s.driveReady v).rxOvfPending = s.rxOvfPending := rfl
@[simp] theorem State.driveReady_devAddr (s : State) (v : Bool) : (s.driveReady v).devAddr = s.devAddr := rfl
@[simp] theorem State.driveReady_senseReady (s : State) (v : Bool) : (s.driveReady v).senseReady = v := rfl
@[simp] theorem State.driveReady_ledReady (s : State) (v : Bool) : (s.driveReady v).ledReady = v := rfl
@[simp] theorem State.driveReady_rxReadPtr (s : State) (v : Bool) : (s.driveReady v).rxReadPtr = s.rxReadPtr := rfl
@[simp] theorem State.driveReady_cmdOutstanding (s : State) (v : Bool) : (s.driveReady v).cmdOutstanding = s.cmdOutstanding := rfl
@[simp] theorem State.driveReady_cycAbandon (s : State) (v : Bool) : (s.driveReady v).cycAbandon = s.cycAbandon := rfl
@[simp] theorem State.driveReady_cycUnknown (s : State) (v : Bool) : (s.driveReady v).cycUnknown = s.cycUnknown := rfl
@[simp] theorem State.driveReady_cycResetSeen (s : State) (v : Bool) : (s.driveReady v).cycResetSeen = s.cycResetSeen := rfl
@[simp] theorem State.driveReady_txBuf (s : State) (v : Bool) : (s.driveReady v).txBuf = s.txBuf := rfl
@[simp] theorem State.driveReady_txReportSize (s : State) (v : Bool) : (s.driveReady v).txReportSize = s.txReportSize := rfl
@[simp] theorem State.driveReady_txOvf (s : State) (v : Bool) : (s.driveReady v).txOvf = s.txOvf := rfl
@[simp] theorem State.driveReady_retBuf (s : State) (v : Bool) : (s.driveReady v).retBuf = s.retBuf := rfl
@[simp] theorem State.driveReady_retLen (s : State) (v : Bool) : (s.driveReady v).retLen = s.retLen := rfl
@[simp] theorem State.driveReady_retValid (s : State) (v : Bool) : (s.driveReady v).retValid = s.retValid := rfl
@[simp] theorem State.driveReady_txEmitPtr (s : State) (v : Bool) : (s.driveReady v).txEmitPtr = s.txEmitPtr := rfl
@[simp] theorem State.driveReady_txEmitting (s : State) (v : Bool) : (s.driveReady v).txEmitting = s.txEmitting := rfl
@[simp] theorem State.driveReady_cfg (s : State) (v : Bool) : (s.driveReady v).cfg = s.cfg := rfl
@[simp] theorem State.driveReady_draws (s : State) (v : Bool) : (s.driveReady v).draws = s.draws := rfl
@[simp] theorem State.driveReady_offers (s : State) (v : Bool) : (s.driveReady v).offers = s.offers := rfl
@[simp] theorem State.driveReady_trace (s : State) (v : Bool) : (s.driveReady v).trace = s.trace := rfl

/-! ### `State.advance` -/

@[simp] theorem State.advance_enabled (s : State) (n : Nat) : (s.advance n).enabled = s.enabled := rfl
@[simp] theorem State.advance_rxBuf (s : State) (n : Nat) : (s.advance n).rxBuf = s.rxBuf := rfl
@[simp] theorem State.advance_rxSize (s : State) (n : Nat) : (s.advance n).rxSize = s.rxSize := rfl
@[simp] theorem State.advance_rxReceiving (s : State) (n : Nat) : (s.advance n).rxReceiving = s.rxReceiving := rfl
@[simp] theorem State.advance_rxEscaping (s : State) (n : Nat) : (s.advance n).rxEscaping = s.rxEscaping := rfl
@[simp] theorem State.advance_rxAvailable (s : State) (n : Nat) : (s.advance n).rxAvailable = s.rxAvailable := rfl
@[simp] theorem State.advance_rxOvfPending (s : State) (n : Nat) : (s.advance n).rxOvfPending = s.rxOvfPending := rfl
@[simp] theorem State.advance_devAddr (s : State) (n : Nat) : (s.advance n).devAddr = s.devAddr := rfl
@[simp] theorem State.advance_senseReady (s : State) (n : Nat) : (s.advance n).senseReady = s.senseReady := rfl
@[simp] theorem State.advance_ledReady (s : State) (n : Nat) : (s.advance n).ledReady = s.ledReady := rfl
@[simp] theorem State.advance_rxReadPtr (s : State) (n : Nat) : (s.advance n).rxReadPtr = s.rxReadPtr + n := rfl
@[simp] theorem State.advance_cmdOutstanding (s : State) (n : Nat) : (s.advance n).cmdOutstanding = s.cmdOutstanding := rfl
@[simp] theorem State.advance_cycAbandon (s : State) (n : Nat) : (s.advance n).cycAbandon = s.cycAbandon := rfl
@[simp] theorem State.advance_cycUnknown (s : State) (n : Nat) : (s.advance n).cycUnknown = s.cycUnknown := rfl
@[simp] theorem State.advance_cycResetSeen (s : State) (n : Nat) : (s.advance n).cycResetSeen = s.cycResetSeen := rfl
@[simp] theorem State.advance_txBuf (s : State) (n : Nat) : (s.advance n).txBuf = s.txBuf := rfl
@[simp] theorem State.advance_txReportSize (s : State) (n : Nat) : (s.advance n).txReportSize = s.txReportSize := rfl
@[simp] theorem State.advance_txOvf (s : State) (n : Nat) : (s.advance n).txOvf = s.txOvf := rfl
@[simp] theorem State.advance_retBuf (s : State) (n : Nat) : (s.advance n).retBuf = s.retBuf := rfl
@[simp] theorem State.advance_retLen (s : State) (n : Nat) : (s.advance n).retLen = s.retLen := rfl
@[simp] theorem State.advance_retValid (s : State) (n : Nat) : (s.advance n).retValid = s.retValid := rfl
@[simp] theorem State.advance_txEmitPtr (s : State) (n : Nat) : (s.advance n).txEmitPtr = s.txEmitPtr := rfl
@[simp] theorem State.advance_txEmitting (s : State) (n : Nat) : (s.advance n).txEmitting = s.txEmitting := rfl
@[simp] theorem State.advance_cfg (s : State) (n : Nat) : (s.advance n).cfg = s.cfg := rfl
@[simp] theorem State.advance_draws (s : State) (n : Nat) : (s.advance n).draws = s.draws := rfl
@[simp] theorem State.advance_offers (s : State) (n : Nat) : (s.advance n).offers = s.offers := rfl
@[simp] theorem State.advance_trace (s : State) (n : Nat) : (s.advance n).trace = s.trace := rfl

/-! ### `State.malformed` (R171) -/

@[simp] theorem State.malformed_enabled (s : State) (op : Byte) : (s.malformed op).enabled = s.enabled := rfl
@[simp] theorem State.malformed_rxBuf (s : State) (op : Byte) : (s.malformed op).rxBuf = s.rxBuf := rfl
@[simp] theorem State.malformed_rxSize (s : State) (op : Byte) : (s.malformed op).rxSize = s.rxSize := rfl
@[simp] theorem State.malformed_rxReceiving (s : State) (op : Byte) : (s.malformed op).rxReceiving = s.rxReceiving := rfl
@[simp] theorem State.malformed_rxEscaping (s : State) (op : Byte) : (s.malformed op).rxEscaping = s.rxEscaping := rfl
@[simp] theorem State.malformed_rxAvailable (s : State) (op : Byte) : (s.malformed op).rxAvailable = s.rxAvailable := rfl
@[simp] theorem State.malformed_rxOvfPending (s : State) (op : Byte) : (s.malformed op).rxOvfPending = s.rxOvfPending := rfl
@[simp] theorem State.malformed_devAddr (s : State) (op : Byte) : (s.malformed op).devAddr = s.devAddr := rfl
@[simp] theorem State.malformed_senseReady (s : State) (op : Byte) : (s.malformed op).senseReady = s.senseReady := rfl
@[simp] theorem State.malformed_ledReady (s : State) (op : Byte) : (s.malformed op).ledReady = s.ledReady := rfl
@[simp] theorem State.malformed_rxReadPtr (s : State) (op : Byte) : (s.malformed op).rxReadPtr = s.rxReadPtr := rfl
@[simp] theorem State.malformed_cmdOutstanding (s : State) (op : Byte) : (s.malformed op).cmdOutstanding = s.cmdOutstanding := rfl
@[simp] theorem State.malformed_cycAbandon (s : State) (op : Byte) : (s.malformed op).cycAbandon = true := rfl
@[simp] theorem State.malformed_cycUnknown (s : State) (op : Byte) : (s.malformed op).cycUnknown = true := rfl
@[simp] theorem State.malformed_cycResetSeen (s : State) (op : Byte) : (s.malformed op).cycResetSeen = s.cycResetSeen := rfl
@[simp] theorem State.malformed_txBuf (s : State) (op : Byte) : (s.malformed op).txBuf = s.txBuf := rfl
@[simp] theorem State.malformed_txReportSize (s : State) (op : Byte) : (s.malformed op).txReportSize = s.txReportSize := rfl
@[simp] theorem State.malformed_txOvf (s : State) (op : Byte) : (s.malformed op).txOvf = s.txOvf := rfl
@[simp] theorem State.malformed_retBuf (s : State) (op : Byte) : (s.malformed op).retBuf = s.retBuf := rfl
@[simp] theorem State.malformed_retLen (s : State) (op : Byte) : (s.malformed op).retLen = s.retLen := rfl
@[simp] theorem State.malformed_retValid (s : State) (op : Byte) : (s.malformed op).retValid = s.retValid := rfl
@[simp] theorem State.malformed_txEmitPtr (s : State) (op : Byte) : (s.malformed op).txEmitPtr = s.txEmitPtr := rfl
@[simp] theorem State.malformed_txEmitting (s : State) (op : Byte) : (s.malformed op).txEmitting = s.txEmitting := rfl
@[simp] theorem State.malformed_cfg (s : State) (op : Byte) : (s.malformed op).cfg = s.cfg := rfl
@[simp] theorem State.malformed_draws (s : State) (op : Byte) : (s.malformed op).draws = s.draws := rfl
@[simp] theorem State.malformed_offers (s : State) (op : Byte) : (s.malformed op).offers = s.offers := rfl
@[simp] theorem State.malformed_trace (s : State) (op : Byte) : (s.malformed op).trace = .raised (.malformed op s.windowLen) :: s.trace := rfl

/-! ### `State.clearCycle` (R169) -/

@[simp] theorem State.clearCycle_enabled (s : State) : (s.clearCycle).enabled = s.enabled := rfl
@[simp] theorem State.clearCycle_rxBuf (s : State) : (s.clearCycle).rxBuf = s.rxBuf := rfl
@[simp] theorem State.clearCycle_rxSize (s : State) : (s.clearCycle).rxSize = s.rxSize := rfl
@[simp] theorem State.clearCycle_rxReceiving (s : State) : (s.clearCycle).rxReceiving = s.rxReceiving := rfl
@[simp] theorem State.clearCycle_rxEscaping (s : State) : (s.clearCycle).rxEscaping = s.rxEscaping := rfl
@[simp] theorem State.clearCycle_rxAvailable (s : State) : (s.clearCycle).rxAvailable = s.rxAvailable := rfl
@[simp] theorem State.clearCycle_rxOvfPending (s : State) : (s.clearCycle).rxOvfPending = s.rxOvfPending := rfl
@[simp] theorem State.clearCycle_devAddr (s : State) : (s.clearCycle).devAddr = s.devAddr := rfl
@[simp] theorem State.clearCycle_senseReady (s : State) : (s.clearCycle).senseReady = s.senseReady := rfl
@[simp] theorem State.clearCycle_ledReady (s : State) : (s.clearCycle).ledReady = s.ledReady := rfl
@[simp] theorem State.clearCycle_rxReadPtr (s : State) : (s.clearCycle).rxReadPtr = s.rxReadPtr := rfl
@[simp] theorem State.clearCycle_cmdOutstanding (s : State) : (s.clearCycle).cmdOutstanding = s.cmdOutstanding := rfl
@[simp] theorem State.clearCycle_cycAbandon (s : State) : (s.clearCycle).cycAbandon = false := rfl
@[simp] theorem State.clearCycle_cycUnknown (s : State) : (s.clearCycle).cycUnknown = false := rfl
@[simp] theorem State.clearCycle_cycResetSeen (s : State) : (s.clearCycle).cycResetSeen = false := rfl
@[simp] theorem State.clearCycle_txBuf (s : State) : (s.clearCycle).txBuf = s.txBuf := rfl
@[simp] theorem State.clearCycle_txReportSize (s : State) : (s.clearCycle).txReportSize = 1 := rfl
@[simp] theorem State.clearCycle_txOvf (s : State) : (s.clearCycle).txOvf = false := rfl
@[simp] theorem State.clearCycle_retBuf (s : State) : (s.clearCycle).retBuf = s.retBuf := rfl
@[simp] theorem State.clearCycle_retLen (s : State) : (s.clearCycle).retLen = s.retLen := rfl
@[simp] theorem State.clearCycle_retValid (s : State) : (s.clearCycle).retValid = s.retValid := rfl
@[simp] theorem State.clearCycle_txEmitPtr (s : State) : (s.clearCycle).txEmitPtr = s.txEmitPtr := rfl
@[simp] theorem State.clearCycle_txEmitting (s : State) : (s.clearCycle).txEmitting = s.txEmitting := rfl
@[simp] theorem State.clearCycle_cfg (s : State) : (s.clearCycle).cfg = s.cfg := rfl
@[simp] theorem State.clearCycle_draws (s : State) : (s.clearCycle).draws = s.draws := rfl
@[simp] theorem State.clearCycle_offers (s : State) : (s.clearCycle).offers = s.offers := rfl
@[simp] theorem State.clearCycle_trace (s : State) : (s.clearCycle).trace = s.trace := rfl

/-! ### `State.latch` (R226) -/

@[simp] theorem State.latch_enabled (s : State) (image : List Byte) : (s.latch image).enabled = s.enabled := rfl
@[simp] theorem State.latch_rxBuf (s : State) (image : List Byte) : (s.latch image).rxBuf = s.rxBuf := rfl
@[simp] theorem State.latch_rxSize (s : State) (image : List Byte) : (s.latch image).rxSize = s.rxSize := rfl
@[simp] theorem State.latch_rxReceiving (s : State) (image : List Byte) : (s.latch image).rxReceiving = s.rxReceiving := rfl
@[simp] theorem State.latch_rxEscaping (s : State) (image : List Byte) : (s.latch image).rxEscaping = s.rxEscaping := rfl
@[simp] theorem State.latch_rxAvailable (s : State) (image : List Byte) : (s.latch image).rxAvailable = s.rxAvailable := rfl
@[simp] theorem State.latch_rxOvfPending (s : State) (image : List Byte) : (s.latch image).rxOvfPending = s.rxOvfPending := rfl
@[simp] theorem State.latch_devAddr (s : State) (image : List Byte) : (s.latch image).devAddr = s.devAddr := rfl
@[simp] theorem State.latch_senseReady (s : State) (image : List Byte) : (s.latch image).senseReady = s.senseReady := rfl
@[simp] theorem State.latch_ledReady (s : State) (image : List Byte) : (s.latch image).ledReady = s.ledReady := rfl
@[simp] theorem State.latch_rxReadPtr (s : State) (image : List Byte) : (s.latch image).rxReadPtr = s.rxReadPtr := rfl
@[simp] theorem State.latch_cmdOutstanding (s : State) (image : List Byte) : (s.latch image).cmdOutstanding = s.cmdOutstanding := rfl
@[simp] theorem State.latch_cycAbandon (s : State) (image : List Byte) : (s.latch image).cycAbandon = s.cycAbandon := rfl
@[simp] theorem State.latch_cycUnknown (s : State) (image : List Byte) : (s.latch image).cycUnknown = s.cycUnknown := rfl
@[simp] theorem State.latch_cycResetSeen (s : State) (image : List Byte) : (s.latch image).cycResetSeen = s.cycResetSeen := rfl
@[simp] theorem State.latch_txBuf (s : State) (image : List Byte) : (s.latch image).txBuf = s.txBuf := rfl
@[simp] theorem State.latch_txReportSize (s : State) (image : List Byte) : (s.latch image).txReportSize = s.txReportSize := rfl
@[simp] theorem State.latch_txOvf (s : State) (image : List Byte) : (s.latch image).txOvf = s.txOvf := rfl
@[simp] theorem State.latch_retBuf (s : State) (image : List Byte) : (s.latch image).retBuf = s.retBuf.writeList 0 (wireImage s.cfg image) := rfl
@[simp] theorem State.latch_retLen (s : State) (image : List Byte) : (s.latch image).retLen = (wireImage s.cfg image).length := rfl
@[simp] theorem State.latch_retValid (s : State) (image : List Byte) : (s.latch image).retValid = true := rfl
@[simp] theorem State.latch_txEmitPtr (s : State) (image : List Byte) : (s.latch image).txEmitPtr = 0 := rfl
@[simp] theorem State.latch_txEmitting (s : State) (image : List Byte) : (s.latch image).txEmitting = true := rfl
@[simp] theorem State.latch_cfg (s : State) (image : List Byte) : (s.latch image).cfg = s.cfg := rfl
@[simp] theorem State.latch_draws (s : State) (image : List Byte) : (s.latch image).draws = s.draws := rfl
@[simp] theorem State.latch_offers (s : State) (image : List Byte) : (s.latch image).offers = s.offers := rfl
@[simp] theorem State.latch_trace (s : State) (image : List Byte) : (s.latch image).trace = s.trace := rfl

/-! ### `State.settleOverflow` (R220) -/

@[simp] theorem State.settleOverflow_enabled (s : State) (st : Byte) : (s.settleOverflow st).enabled = s.enabled := rfl
@[simp] theorem State.settleOverflow_rxBuf (s : State) (st : Byte) : (s.settleOverflow st).rxBuf = s.rxBuf := rfl
@[simp] theorem State.settleOverflow_rxSize (s : State) (st : Byte) : (s.settleOverflow st).rxSize = s.rxSize := rfl
@[simp] theorem State.settleOverflow_rxReceiving (s : State) (st : Byte) : (s.settleOverflow st).rxReceiving = s.rxReceiving := rfl
@[simp] theorem State.settleOverflow_rxEscaping (s : State) (st : Byte) : (s.settleOverflow st).rxEscaping = s.rxEscaping := rfl
@[simp] theorem State.settleOverflow_rxAvailable (s : State) (st : Byte) : (s.settleOverflow st).rxAvailable = s.rxAvailable := rfl
@[simp] theorem State.settleOverflow_rxOvfPending (s : State) (st : Byte) : (s.settleOverflow st).rxOvfPending = (s.rxOvfPending && st != s.cfg.statusOverflow) := rfl
@[simp] theorem State.settleOverflow_devAddr (s : State) (st : Byte) : (s.settleOverflow st).devAddr = s.devAddr := rfl
@[simp] theorem State.settleOverflow_senseReady (s : State) (st : Byte) : (s.settleOverflow st).senseReady = s.senseReady := rfl
@[simp] theorem State.settleOverflow_ledReady (s : State) (st : Byte) : (s.settleOverflow st).ledReady = s.ledReady := rfl
@[simp] theorem State.settleOverflow_rxReadPtr (s : State) (st : Byte) : (s.settleOverflow st).rxReadPtr = s.rxReadPtr := rfl
@[simp] theorem State.settleOverflow_cmdOutstanding (s : State) (st : Byte) : (s.settleOverflow st).cmdOutstanding = s.cmdOutstanding := rfl
@[simp] theorem State.settleOverflow_cycAbandon (s : State) (st : Byte) : (s.settleOverflow st).cycAbandon = s.cycAbandon := rfl
@[simp] theorem State.settleOverflow_cycUnknown (s : State) (st : Byte) : (s.settleOverflow st).cycUnknown = s.cycUnknown := rfl
@[simp] theorem State.settleOverflow_cycResetSeen (s : State) (st : Byte) : (s.settleOverflow st).cycResetSeen = s.cycResetSeen := rfl
@[simp] theorem State.settleOverflow_txBuf (s : State) (st : Byte) : (s.settleOverflow st).txBuf = s.txBuf := rfl
@[simp] theorem State.settleOverflow_txReportSize (s : State) (st : Byte) : (s.settleOverflow st).txReportSize = s.txReportSize := rfl
@[simp] theorem State.settleOverflow_txOvf (s : State) (st : Byte) : (s.settleOverflow st).txOvf = s.txOvf := rfl
@[simp] theorem State.settleOverflow_retBuf (s : State) (st : Byte) : (s.settleOverflow st).retBuf = s.retBuf := rfl
@[simp] theorem State.settleOverflow_retLen (s : State) (st : Byte) : (s.settleOverflow st).retLen = s.retLen := rfl
@[simp] theorem State.settleOverflow_retValid (s : State) (st : Byte) : (s.settleOverflow st).retValid = s.retValid := rfl
@[simp] theorem State.settleOverflow_txEmitPtr (s : State) (st : Byte) : (s.settleOverflow st).txEmitPtr = s.txEmitPtr := rfl
@[simp] theorem State.settleOverflow_txEmitting (s : State) (st : Byte) : (s.settleOverflow st).txEmitting = s.txEmitting := rfl
@[simp] theorem State.settleOverflow_cfg (s : State) (st : Byte) : (s.settleOverflow st).cfg = s.cfg := rfl
@[simp] theorem State.settleOverflow_draws (s : State) (st : Byte) : (s.settleOverflow st).draws = s.draws := rfl
@[simp] theorem State.settleOverflow_offers (s : State) (st : Byte) : (s.settleOverflow st).offers = s.offers := rfl
@[simp] theorem State.settleOverflow_trace (s : State) (st : Byte) : (s.settleOverflow st).trace = s.trace := rfl

/-! ### `State.resetCore` (R49) -/

@[simp] theorem State.resetCore_enabled (s : State) : (s.resetCore).enabled = false := rfl
@[simp] theorem State.resetCore_rxBuf (s : State) : (s.resetCore).rxBuf = [] := rfl
@[simp] theorem State.resetCore_rxSize (s : State) : (s.resetCore).rxSize = 0 := rfl
@[simp] theorem State.resetCore_rxReceiving (s : State) : (s.resetCore).rxReceiving = false := rfl
@[simp] theorem State.resetCore_rxEscaping (s : State) : (s.resetCore).rxEscaping = false := rfl
@[simp] theorem State.resetCore_rxAvailable (s : State) : (s.resetCore).rxAvailable = false := rfl
@[simp] theorem State.resetCore_rxOvfPending (s : State) : (s.resetCore).rxOvfPending = false := rfl
@[simp] theorem State.resetCore_devAddr (s : State) : (s.resetCore).devAddr = 0 := rfl
@[simp] theorem State.resetCore_senseReady (s : State) : (s.resetCore).senseReady = false := rfl
@[simp] theorem State.resetCore_ledReady (s : State) : (s.resetCore).ledReady = false := rfl
@[simp] theorem State.resetCore_rxReadPtr (s : State) : (s.resetCore).rxReadPtr = 0 := rfl
@[simp] theorem State.resetCore_cmdOutstanding (s : State) : (s.resetCore).cmdOutstanding = false := rfl
@[simp] theorem State.resetCore_cycAbandon (s : State) : (s.resetCore).cycAbandon = false := rfl
@[simp] theorem State.resetCore_cycUnknown (s : State) : (s.resetCore).cycUnknown = false := rfl
@[simp] theorem State.resetCore_cycResetSeen (s : State) : (s.resetCore).cycResetSeen = false := rfl
@[simp] theorem State.resetCore_txBuf (s : State) : (s.resetCore).txBuf = [] := rfl
@[simp] theorem State.resetCore_txReportSize (s : State) : (s.resetCore).txReportSize = 1 := rfl
@[simp] theorem State.resetCore_txOvf (s : State) : (s.resetCore).txOvf = false := rfl
@[simp] theorem State.resetCore_retBuf (s : State) : (s.resetCore).retBuf = [] := rfl
@[simp] theorem State.resetCore_retLen (s : State) : (s.resetCore).retLen = 0 := rfl
@[simp] theorem State.resetCore_retValid (s : State) : (s.resetCore).retValid = false := rfl
@[simp] theorem State.resetCore_txEmitPtr (s : State) : (s.resetCore).txEmitPtr = 0 := rfl
@[simp] theorem State.resetCore_txEmitting (s : State) : (s.resetCore).txEmitting = false := rfl
@[simp] theorem State.resetCore_cfg (s : State) : (s.resetCore).cfg = s.cfg := rfl
@[simp] theorem State.resetCore_draws (s : State) : (s.resetCore).draws = s.draws + 1 := rfl
@[simp] theorem State.resetCore_offers (s : State) : (s.resetCore).offers = s.offers := rfl
@[simp] theorem State.resetCore_trace (s : State) : (s.resetCore).trace = s.readyCalls State.reset ++ s.trace := rfl

/-! ### `State.store`: only the space written changes -/

@[simp] theorem State.store_enabled (s : State) (sp : Space) (i : Nat) (v : Byte) : (s.store sp i v).enabled = s.enabled := by
  cases sp <;> rfl
@[simp] theorem State.store_rxSize (s : State) (sp : Space) (i : Nat) (v : Byte) : (s.store sp i v).rxSize = s.rxSize := by
  cases sp <;> rfl
@[simp] theorem State.store_rxReceiving (s : State) (sp : Space) (i : Nat) (v : Byte) : (s.store sp i v).rxReceiving = s.rxReceiving := by
  cases sp <;> rfl
@[simp] theorem State.store_rxEscaping (s : State) (sp : Space) (i : Nat) (v : Byte) : (s.store sp i v).rxEscaping = s.rxEscaping := by
  cases sp <;> rfl
@[simp] theorem State.store_rxAvailable (s : State) (sp : Space) (i : Nat) (v : Byte) : (s.store sp i v).rxAvailable = s.rxAvailable := by
  cases sp <;> rfl
@[simp] theorem State.store_rxOvfPending (s : State) (sp : Space) (i : Nat) (v : Byte) : (s.store sp i v).rxOvfPending = s.rxOvfPending := by
  cases sp <;> rfl
@[simp] theorem State.store_devAddr (s : State) (sp : Space) (i : Nat) (v : Byte) : (s.store sp i v).devAddr = s.devAddr := by
  cases sp <;> rfl
@[simp] theorem State.store_senseReady (s : State) (sp : Space) (i : Nat) (v : Byte) : (s.store sp i v).senseReady = s.senseReady := by
  cases sp <;> rfl
@[simp] theorem State.store_ledReady (s : State) (sp : Space) (i : Nat) (v : Byte) : (s.store sp i v).ledReady = s.ledReady := by
  cases sp <;> rfl
@[simp] theorem State.store_rxReadPtr (s : State) (sp : Space) (i : Nat) (v : Byte) : (s.store sp i v).rxReadPtr = s.rxReadPtr := by
  cases sp <;> rfl
@[simp] theorem State.store_cmdOutstanding (s : State) (sp : Space) (i : Nat) (v : Byte) : (s.store sp i v).cmdOutstanding = s.cmdOutstanding := by
  cases sp <;> rfl
@[simp] theorem State.store_cycAbandon (s : State) (sp : Space) (i : Nat) (v : Byte) : (s.store sp i v).cycAbandon = s.cycAbandon := by
  cases sp <;> rfl
@[simp] theorem State.store_cycUnknown (s : State) (sp : Space) (i : Nat) (v : Byte) : (s.store sp i v).cycUnknown = s.cycUnknown := by
  cases sp <;> rfl
@[simp] theorem State.store_cycResetSeen (s : State) (sp : Space) (i : Nat) (v : Byte) : (s.store sp i v).cycResetSeen = s.cycResetSeen := by
  cases sp <;> rfl
@[simp] theorem State.store_txReportSize (s : State) (sp : Space) (i : Nat) (v : Byte) : (s.store sp i v).txReportSize = s.txReportSize := by
  cases sp <;> rfl
@[simp] theorem State.store_txOvf (s : State) (sp : Space) (i : Nat) (v : Byte) : (s.store sp i v).txOvf = s.txOvf := by
  cases sp <;> rfl
@[simp] theorem State.store_retLen (s : State) (sp : Space) (i : Nat) (v : Byte) : (s.store sp i v).retLen = s.retLen := by
  cases sp <;> rfl
@[simp] theorem State.store_retValid (s : State) (sp : Space) (i : Nat) (v : Byte) : (s.store sp i v).retValid = s.retValid := by
  cases sp <;> rfl
@[simp] theorem State.store_txEmitPtr (s : State) (sp : Space) (i : Nat) (v : Byte) : (s.store sp i v).txEmitPtr = s.txEmitPtr := by
  cases sp <;> rfl
@[simp] theorem State.store_txEmitting (s : State) (sp : Space) (i : Nat) (v : Byte) : (s.store sp i v).txEmitting = s.txEmitting := by
  cases sp <;> rfl
@[simp] theorem State.store_cfg (s : State) (sp : Space) (i : Nat) (v : Byte) : (s.store sp i v).cfg = s.cfg := by
  cases sp <;> rfl
@[simp] theorem State.store_draws (s : State) (sp : Space) (i : Nat) (v : Byte) : (s.store sp i v).draws = s.draws := by
  cases sp <;> rfl
@[simp] theorem State.store_offers (s : State) (sp : Space) (i : Nat) (v : Byte) : (s.store sp i v).offers = s.offers := by
  cases sp <;> rfl
@[simp] theorem State.store_trace (s : State) (sp : Space) (i : Nat) (v : Byte) : (s.store sp i v).trace = s.trace := by
  cases sp <;> rfl

@[simp] theorem State.store_mem_same (s : State) (sp : Space) (i : Nat) (v : Byte) :
    (s.store sp i v).mem sp = (s.mem sp).write i v := by
  cases sp <;> rfl

theorem State.store_mem_other (s : State) {sp sp' : Space} (i : Nat) (v : Byte) (h : sp' ≠ sp) :
    (s.store sp i v).mem sp' = s.mem sp' := by
  cases sp <;> cases sp' <;> first | rfl | exact absurd rfl h

end Sys2Proof.Machine
end

