-- ==== Sys2Proof/Laws/Ops.lean ====
section
/-! SUPPORT. What each shared operation does, once each: one-byte accesses, runs of bytes, append, assembly of a response,
the latch, and the accounting of the retry latch's length. -/

namespace Sys2Proof.Machine

/-! ### The indexes of a space -/

@[simp] theorem Config.capacity_rx (c : Config) : c.capacity .rx = c.rxCap := rfl
@[simp] theorem Config.capacity_tx (c : Config) : c.capacity .tx = c.txCap := rfl
@[simp] theorem Config.capacity_ret (c : Config) : c.capacity .ret = c.retCap := rfl

/-- A space has the indexes below its capacity (R60). -/
@[simp] theorem State.hasIndex_iff (s : State) (sp : Space) (i : Nat) :
    s.hasIndex sp i = true ↔ i < s.cfg.capacity sp := by
  simp only [State.hasIndex, decide_eq_true_eq]

/-! ### One byte -/

/-- A byte depends on its space's contents and on the draw of the unwritten ones. -/
theorem State.byte_congr {s t : State} {sp : Space} (i : Nat) (hm : t.mem sp = s.mem sp) (hd : t.draws = s.draws) :
    t.byte sp i = s.byte sp i := by
  simp only [State.byte, hm, hd]

/-- Updates that touch no buffer leave every byte. -/
theorem State.byte_of_buffers {s t : State} (hr : t.rxBuf = s.rxBuf) (ht : t.txBuf = s.txBuf) (hl : t.retBuf = s.retBuf)
    (hd : t.draws = s.draws) (sp : Space) (i : Nat) : t.byte sp i = s.byte sp i := by
  apply State.byte_congr i _ hd
  cases sp <;> assumption

@[simp] theorem State.byte_note (s : State) (n : Note) (sp : Space) (i : Nat) : (s.note n).byte sp i = s.byte sp i := by
  cases sp <;> rfl

@[simp] theorem State.byte_raise (s : State) (c : Condition) (sp : Space) (i : Nat) :
    (s.raise c).byte sp i = s.byte sp i := by
  cases sp <;> rfl

@[simp] theorem State.byte_answer (s : State) (r : Response) (sp : Space) (i : Nat) :
    (s.answer r).byte sp i = s.byte sp i := by
  cases sp <;> rfl

@[simp] theorem State.byte_emit (s : State) (b : Byte) (sp : Space) (i : Nat) : (s.emit b).byte sp i = s.byte sp i := by
  cases sp <;> rfl

/-- An event that leaves sense and LED as they were makes no driver call (R264). -/
theorem State.readyCalls_same {s t : State} (hs : t.senseReady = s.senseReady) (hl : t.ledReady = s.ledReady) :
    s.readyCalls t = [] := by
  simp [State.readyCalls, hs, hl]

theorem State.noteReady_same {s t : State} (hs : t.senseReady = s.senseReady) (hl : t.ledReady = s.ledReady) :
    s.noteReady t = t := by
  rw [State.noteReady, State.readyCalls_same hs hl, List.nil_append]

@[simp] theorem State.byte_noteReady (s t : State) (sp : Space) (i : Nat) : (s.noteReady t).byte sp i = t.byte sp i := by
  cases sp <;> rfl
@[simp] theorem State.byte_driveReady (s : State) (v : Bool) (sp : Space) (i : Nat) :
    (s.driveReady v).byte sp i = s.byte sp i := by
  cases sp <;> rfl

@[simp] theorem State.byte_advance (s : State) (n : Nat) (sp : Space) (i : Nat) :
    (s.advance n).byte sp i = s.byte sp i := by
  cases sp <;> rfl

@[simp] theorem State.byte_malformed (s : State) (op : Byte) (sp : Space) (i : Nat) :
    (s.malformed op).byte sp i = s.byte sp i := by
  cases sp <;> rfl

@[simp] theorem State.byte_clearCycle (s : State) (sp : Space) (i : Nat) : (s.clearCycle).byte sp i = s.byte sp i := by
  cases sp <;> rfl

@[simp] theorem State.byte_settleOverflow (s : State) (st : Byte) (sp : Space) (i : Nat) :
    (s.settleOverflow st).byte sp i = s.byte sp i := by
  cases sp <;> rfl

/-- Read after write. -/
@[simp] theorem State.byte_store_same (s : State) (sp : Space) (i : Nat) (v : Byte) :
    (s.store sp i v).byte sp i = v := by
  simp [State.byte, Memory.read_write_same]

/-- A write leaves every other byte, of its own space and of the others. -/
theorem State.byte_store_other (s : State) {sp sp' : Space} {i j : Nat} (v : Byte) (h : sp' ≠ sp ∨ j ≠ i) :
    (s.store sp i v).byte sp' j = s.byte sp' j := by
  by_cases hs : sp' = sp
  · subst hs
    have hj : j ≠ i := h.resolve_left (by simp)
    simp [State.byte, Memory.read_write_other _ _ hj]
  · exact State.byte_congr j (State.store_mem_other s i v hs) (by simp)

/-! ### Runs of bytes -/

@[simp] theorem State.bytes_length (s : State) (sp : Space) (i n : Nat) : (s.bytes sp i n).length = n := by
  induction n generalizing i with
  | zero => rfl
  | succ n ih => simp [State.bytes, ih]

theorem State.bytes_congr {s t : State} {sp : Space} {i n : Nat} (h : ∀ k, k < n → t.byte sp (i + k) = s.byte sp (i + k)) :
    t.bytes sp i n = s.bytes sp i n := by
  induction n generalizing i with
  | zero => rfl
  | succ n ih =>
    simp only [State.bytes]
    rw [show t.byte sp i = s.byte sp i from h 0 (by omega), ih]
    intro k hk
    have := h (k + 1) (by omega)
    rwa [show i + (k + 1) = i + 1 + k by omega] at this

/-- A run of bytes depends on its space's contents and on the draw of the unwritten ones. -/
theorem State.bytes_of_mem {s t : State} {sp : Space} (hm : t.mem sp = s.mem sp) (hd : t.draws = s.draws) (i n : Nat) :
    t.bytes sp i n = s.bytes sp i n :=
  State.bytes_congr fun k _ => State.byte_congr (i + k) hm hd

@[simp] theorem State.bytes_getElem (s : State) (sp : Space) (i n k : Nat) (h : k < (s.bytes sp i n).length) :
    (s.bytes sp i n)[k] = s.byte sp (i + k) := by
  induction n generalizing i k with
  | zero => simp at h
  | succ n ih =>
    cases k with
    | zero => simp [State.bytes]
    | succ k =>
      simp only [State.bytes, List.getElem_cons_succ]
      rw [ih]; congr 1; omega

theorem State.bytes_append (s : State) (sp : Space) (i m n : Nat) :
    s.bytes sp i (m + n) = s.bytes sp i m ++ s.bytes sp (i + m) n := by
  induction m generalizing i with
  | zero => simp [State.bytes]
  | succ m ih =>
    rw [show m + 1 + n = (m + n) + 1 by omega]
    simp only [State.bytes, List.cons_append, ih]
    rw [show i + 1 + m = i + (m + 1) by omega]

/-- A run of bytes is a list when each byte is. -/
theorem State.bytes_eq_of (s : State) (sp : Space) (i : Nat) (l : List Byte)
    (h : ∀ (k : Nat) (hk : k < l.length), s.byte sp (i + k) = l[k]) : s.bytes sp i l.length = l := by
  apply List.ext_getElem (by simp)
  intro k h1 h2
  rw [State.bytes_getElem]; exact h k h2

/-! ### Sums and wire images -/

theorem sum8_append (l r : List Byte) : sum8 (l ++ r) = sum8 l + sum8 r := by
  induction l with
  | nil => simp [sum8]
  | cons b l ih => simp [sum8, ih, BitVec.add_assoc]

theorem escapeAll_append (c : Config) (l r : List Byte) : escapeAll c (l ++ r) = escapeAll c l ++ escapeAll c r := by
  induction l with
  | nil => rfl
  | cons b l ih => simp [escapeAll, ih]

theorem escape_length (c : Config) (v : Byte) : 1 ≤ (escape c v).length ∧ (escape c v).length ≤ 2 := by
  unfold escape; split <;> simp

theorem escapeAll_length (c : Config) (l : List Byte) :
    l.length ≤ (escapeAll c l).length ∧ (escapeAll c l).length ≤ 2 * l.length := by
  induction l with
  | nil => simp [escapeAll]
  | cons b l ih =>
    have := escape_length c b
    simp only [escapeAll, List.length_append, List.length_cons]; omega

theorem wireImage_length (c : Config) (image : List Byte) :
    image.length + 1 ≤ (wireImage c image).length ∧ (wireImage c image).length ≤ 2 * image.length + 1 := by
  have := escapeAll_length c image
  simp only [wireImage, List.length_cons]; omega

@[simp] theorem frameImage_length (a : Byte) (data : List Byte) : (frameImage a data).length = data.length + 3 := by
  simp [frameImage]

/-! ### The latch -/

/-- The latch holds the wire image (R226). -/
theorem State.latch_bytes (s : State) (image : List Byte) :
    (s.latch image).bytes .ret 0 (s.latch image).retLen = wireImage s.cfg image := by
  simp only [State.latch_retLen]
  apply State.bytes_eq_of
  intro k hk
  have := Memory.read_writeList_same (wireImage s.cfg image) s.retBuf (i := 0) hk
  simp only [Nat.zero_add] at this
  simp [State.byte, State.mem, this]

/-- The latch changes no byte of the other spaces. -/
theorem State.latch_byte_other (s : State) (image : List Byte) {sp : Space} (h : sp ≠ .ret) (i : Nat) :
    (s.latch image).byte sp i = s.byte sp i := by
  cases sp <;> first | rfl | exact absurd rfl h

/-! ### Append (R200) -/

/-- Everything `append` can do: a byte that fits is stored behind the queue, one that does not sets `tx_ovf`. -/
theorem State.append_cases (s : State) (v : Byte) :
    (s.txReportSize < s.cfg.qMax ∧
      s.append v = { s.store .tx (2 + s.txReportSize) v with txReportSize := s.txReportSize + 1 }) ∨
    (s.cfg.qMax ≤ s.txReportSize ∧ s.append v = { s with txOvf := true }.raise (.txOverflow v)) := by
  unfold State.append
  by_cases h : s.txReportSize < s.cfg.qMax
  · exact .inl ⟨h, by simp [h]⟩
  · exact .inr ⟨by omega, by simp [h]⟩

/-- Append leaves every register but the queue's, and every buffer but TX. -/
theorem State.append_frame (s : State) (v : Byte) :
    s.append v = { s with
      txBuf := (s.append v).txBuf
      txReportSize := (s.append v).txReportSize
      txOvf := (s.append v).txOvf
      trace := (s.append v).trace } := by
  rcases s.append_cases v with ⟨-, h⟩ | ⟨-, h⟩ <;> rw [h] <;> rfl

@[simp] theorem State.append_enabled (s : State) (v : Byte) : (s.append v).enabled = s.enabled := by rw [State.append_frame]
@[simp] theorem State.append_rxBuf (s : State) (v : Byte) : (s.append v).rxBuf = s.rxBuf := by rw [State.append_frame]
@[simp] theorem State.append_rxSize (s : State) (v : Byte) : (s.append v).rxSize = s.rxSize := by rw [State.append_frame]
@[simp] theorem State.append_rxReceiving (s : State) (v : Byte) : (s.append v).rxReceiving = s.rxReceiving := by rw [State.append_frame]
@[simp] theorem State.append_rxEscaping (s : State) (v : Byte) : (s.append v).rxEscaping = s.rxEscaping := by rw [State.append_frame]
@[simp] theorem State.append_rxAvailable (s : State) (v : Byte) : (s.append v).rxAvailable = s.rxAvailable := by rw [State.append_frame]
@[simp] theorem State.append_rxOvfPending (s : State) (v : Byte) : (s.append v).rxOvfPending = s.rxOvfPending := by rw [State.append_frame]
@[simp] theorem State.append_devAddr (s : State) (v : Byte) : (s.append v).devAddr = s.devAddr := by rw [State.append_frame]
@[simp] theorem State.append_senseReady (s : State) (v : Byte) : (s.append v).senseReady = s.senseReady := by rw [State.append_frame]
@[simp] theorem State.append_ledReady (s : State) (v : Byte) : (s.append v).ledReady = s.ledReady := by rw [State.append_frame]
@[simp] theorem State.append_rxReadPtr (s : State) (v : Byte) : (s.append v).rxReadPtr = s.rxReadPtr := by rw [State.append_frame]
@[simp] theorem State.append_cmdOutstanding (s : State) (v : Byte) : (s.append v).cmdOutstanding = s.cmdOutstanding := by rw [State.append_frame]
@[simp] theorem State.append_cycAbandon (s : State) (v : Byte) : (s.append v).cycAbandon = s.cycAbandon := by rw [State.append_frame]
@[simp] theorem State.append_cycUnknown (s : State) (v : Byte) : (s.append v).cycUnknown = s.cycUnknown := by rw [State.append_frame]
@[simp] theorem State.append_cycResetSeen (s : State) (v : Byte) : (s.append v).cycResetSeen = s.cycResetSeen := by rw [State.append_frame]
@[simp] theorem State.append_retBuf (s : State) (v : Byte) : (s.append v).retBuf = s.retBuf := by rw [State.append_frame]
@[simp] theorem State.append_retLen (s : State) (v : Byte) : (s.append v).retLen = s.retLen := by rw [State.append_frame]
@[simp] theorem State.append_retValid (s : State) (v : Byte) : (s.append v).retValid = s.retValid := by rw [State.append_frame]
@[simp] theorem State.append_txEmitPtr (s : State) (v : Byte) : (s.append v).txEmitPtr = s.txEmitPtr := by rw [State.append_frame]
@[simp] theorem State.append_txEmitting (s : State) (v : Byte) : (s.append v).txEmitting = s.txEmitting := by rw [State.append_frame]
@[simp] theorem State.append_cfg (s : State) (v : Byte) : (s.append v).cfg = s.cfg := by rw [State.append_frame]
@[simp] theorem State.append_draws (s : State) (v : Byte) : (s.append v).draws = s.draws := by rw [State.append_frame]
@[simp] theorem State.append_offers (s : State) (v : Byte) : (s.append v).offers = s.offers := by rw [State.append_frame]

/-- What `append` does to the queue: the byte behind it, or `tx_ovf` (R200). -/
theorem State.append_spec (s : State) (v : Byte) :
    if s.txReportSize < s.cfg.qMax then
      (s.append v).byte .tx (2 + s.txReportSize) = v ∧ (s.append v).txReportSize = s.txReportSize + 1 ∧
        (s.append v).txOvf = s.txOvf ∧ (s.append v).trace = s.trace ∧
        s.SameBytesBut (fun sp i => sp = .tx ∧ i = 2 + s.txReportSize) (s.append v)
    else
      (s.append v).txReportSize = s.txReportSize ∧ (s.append v).txOvf = true ∧
        (s.append v).trace = .raised (.txOverflow v) :: s.trace ∧ s.SameBytesBut (fun _ _ => False) (s.append v) := by
  rcases s.append_cases v with ⟨h, he⟩ | ⟨h, he⟩
  · rw [if_pos h]
    have hb : ∀ sp i, (s.append v).byte sp i = (s.store .tx (2 + s.txReportSize) v).byte sp i := by
      intro sp i; rw [he]; rfl
    refine ⟨?_, by rw [he], by rw [he]; rfl, by rw [he]; rfl, ?_⟩
    · rw [hb, State.byte_store_same]
    · intro sp i hx
      rw [hb, State.byte_store_other]
      by_cases hs : sp = .tx
      · exact .inr fun hi => hx ⟨hs, hi⟩
      · exact .inl hs
  · rw [if_neg (by omega), he]
    exact ⟨rfl, rfl, rfl, fun _ _ _ => rfl⟩

/-! ### Assembly of a response (R221, R223) -/

/-- ADDR, LEN and status as `assemble` writes them, before the checksum. -/
def State.headed (s : State) (st : Byte) : State :=
  ((s.store .tx 0 s.cfg.hostAddr).store .tx 1 (BitVec.ofNat 8 (s.txReportSize + 1))).store .tx 2 st

theorem State.headed_bytes (s : State) (st : Byte) (n : Nat) (hn : s.txReportSize = n + 1) :
    (s.headed st).bytes .tx 0 (n + 3) = s.cfg.hostAddr :: BitVec.ofNat 8 (n + 2) :: st :: s.bytes .tx 3 n := by
  rw [show n + 3 = 3 + n by omega, State.bytes_append]
  have h2 : (s.headed st).byte .tx 2 = st := State.byte_store_same _ _ _ _
  have h1 : (s.headed st).byte .tx 1 = BitVec.ofNat 8 (n + 2) := by
    rw [State.headed, State.byte_store_other _ _ (.inr (by decide)), State.byte_store_same, hn]
  have h0 : (s.headed st).byte .tx 0 = s.cfg.hostAddr := by
    rw [State.headed, State.byte_store_other _ _ (.inr (by decide)), State.byte_store_other _ _ (.inr (by decide)),
      State.byte_store_same]
  rw [State.bytes_congr (s := s) (t := s.headed st) (i := 0 + 3) (n := n)]
  · simp [State.bytes, h0, h1, h2]
  · intro k _
    rw [State.headed, State.byte_store_other _ _ (.inr (by omega)), State.byte_store_other _ _ (.inr (by omega)),
      State.byte_store_other _ _ (.inr (by omega))]

/-- The image assembled is the frame of the status and the queued reports. -/
theorem State.assemble_image (s : State) (st : Byte) (h : 1 ≤ s.txReportSize) :
    (s.assemble st).txImage = frameImage s.cfg.hostAddr (st :: s.bytes .tx 3 (s.txReportSize - 1)) := by
  obtain ⟨n, hn⟩ : ∃ n, s.txReportSize = n + 1 := ⟨s.txReportSize - 1, by omega⟩
  have hH := s.headed_bytes st n hn
  have ha : s.assemble st = (s.headed st).store .tx (n + 3) (sum8 ((s.headed st).bytes .tx 0 (n + 3))) := by
    simp [State.assemble, State.headed, hn]
  rw [hH] at ha
  have hq : (s.assemble st).txReportSize = n + 1 := by simp [State.assemble, hn]
  rw [State.txImage, hq, show n + 1 + 3 = (n + 3) + 1 by omega, State.bytes_append]
  rw [State.bytes_congr (s := s.headed st) (t := s.assemble st) (n := n + 3), hH]
  · rw [ha]
    simp [State.bytes, frameImage, hn]
  · intro k hk
    rw [ha, State.byte_store_other _ _ (.inr (by omega))]

/-- Assembly writes only TX. -/
theorem State.assemble_frame (s : State) (st : Byte) : s.assemble st = { s with txBuf := (s.assemble st).txBuf } := rfl

end Sys2Proof.Machine
end

