-- ==== Sys2Proof/Laws/Receiver.lean ====
section
/-! SUPPORT. What the receiver's shared operations do, once each: the gate, the store of a byte and its classification
(40_receiver.md R120 to R130). -/

namespace Sys2Proof.Machine

/-- An enabled receiver with no frame available takes the byte (R121). -/
theorem rxGate_open {s : State} {f : State → Result} (he : s.enabled = true) (ha : s.rxAvailable = false) :
    rxGate s f = f s := by
  simp [rxGate, State.rxHeld, he, ha]

/-- Everything the gate can do: hold or drop the byte, or pass it on (R121). -/
theorem rxGate_cases (s : State) (f : State → Result) :
    rxGate s f = .next s ∨ (s.enabled = true ∧ s.rxAvailable = false ∧ rxGate s f = f s) := by
  unfold rxGate State.rxHeld
  cases s.enabled <;> cases s.rxAvailable <;> simp

/-- The classification writes the receiver's flags, its cursor and the trace only. -/
theorem rxClassify_frame (v : Byte) (i : Nat) (s : State) :
    rxClassify v i s = { s with
      rxReceiving := (rxClassify v i s).rxReceiving
      rxAvailable := (rxClassify v i s).rxAvailable
      rxOvfPending := (rxClassify v i s).rxOvfPending
      rxReadPtr := (rxClassify v i s).rxReadPtr
      trace := (rxClassify v i s).trace } := by
  unfold rxClassify rxLenStored rxCompleted
  split
  · dsimp only; split
    · rfl
    · split <;> rfl
  · split
    · dsimp only; split
      · rfl
      · split <;> rfl
    · rfl

@[simp] theorem rxClassify_byte (v : Byte) (i : Nat) (s : State) (sp : Space) (k : Nat) :
    (rxClassify v i s).byte sp k = s.byte sp k := by
  have := rxClassify_frame v i s
  apply State.byte_of_buffers <;> rw [this]

@[simp] theorem rxPut_byte_same (b : Byte) (s : State) :
    (rxPut b s).byte .rx s.rxSize = unescaped s.rxEscaping b := by
  have : (rxPut b s).byte .rx s.rxSize = (s.store .rx s.rxSize (unescaped s.rxEscaping b)).byte .rx s.rxSize := by
    apply State.byte_of_buffers <;> rfl
  rw [this, State.byte_store_same]

theorem rxPut_byte_other (b : Byte) (s : State) {sp : Space} {k : Nat} (h : sp ≠ .rx ∨ k ≠ s.rxSize) :
    (rxPut b s).byte sp k = s.byte sp k := by
  have : (rxPut b s).byte sp k = (s.store .rx s.rxSize (unescaped s.rxEscaping b)).byte sp k := by
    apply State.byte_of_buffers <;> rfl
  rw [this, State.byte_store_other _ _ h]

/-- Everything the store of a byte can do: the byte lands at `rx_size`, every other byte stays, and only the receiver's
registers and the trace change (R124). -/
theorem rxStore_spec (s : State) (b : Byte) (hi : s.rxSize < s.cfg.rxCap) :
    ∃ t, rxStore b s = .next t ∧ t = rxClassify (unescaped s.rxEscaping b) s.rxSize (rxPut b s) ∧
      t.byte .rx s.rxSize = unescaped s.rxEscaping b ∧
      s.SameBytesBut (fun sp i => sp = .rx ∧ i = s.rxSize) t ∧
      t = { s with
        rxBuf := s.rxBuf.write s.rxSize (unescaped s.rxEscaping b)
        rxSize := s.rxSize + 1
        rxEscaping := false
        rxReceiving := t.rxReceiving
        rxAvailable := t.rxAvailable
        rxOvfPending := t.rxOvfPending
        rxReadPtr := t.rxReadPtr
        trace := t.trace } := by
  refine ⟨_, ?_, rfl, ?_, ?_, rxClassify_frame (unescaped s.rxEscaping b) s.rxSize (rxPut b s)⟩
  · simp [rxStore, State.hasIndex, Config.capacity, hi]
  · rw [rxClassify_byte, rxPut_byte_same]
  · intro sp k h
    rw [rxClassify_byte, rxPut_byte_other]
    by_cases hs : sp = .rx
    · exact .inr fun hk => h ⟨hs, hk⟩
    · exact .inl hs

/-- A store faults only beyond the buffer (log entry 13). -/
theorem rxStore_next {s t : State} {b : Byte} (h : rxStore b s = .next t) :
    s.rxSize < s.cfg.rxCap ∧ t = rxClassify (unescaped s.rxEscaping b) s.rxSize (rxPut b s) := by
  unfold rxStore at h
  split at h
  · rename_i hi
    exact ⟨of_decide_eq_true hi, (Host.Outcome.next.inj h).symm⟩
  · cases h

/-- What a byte behind LEN, but not the last of its frame, does: it is only stored. -/
theorem rxClassify_inside (v : Byte) {i : Nat} {s : State} (h1 : i ≠ 1) (h2 : i + 1 < 3 ∨ i + 1 ≠ s.rxLen + 2) :
    rxClassify v i s = s := by
  unfold rxClassify
  rw [if_neg (by omega), if_neg (by omega)]

/-- What the byte that completes its frame does (R128). -/
theorem rxClassify_last (v : Byte) {i : Nat} {s : State} (h1 : 2 ≤ i) (h2 : i + 1 = s.rxLen + 2) :
    rxClassify v i s = rxCompleted v i s := by
  unfold rxClassify
  rw [if_neg (by omega), if_pos ⟨by omega, h2⟩]

end Sys2Proof.Machine
end

