-- ==== Sys2Proof/Laws/Cycle.lean ====
section
/-! SUPPORT. What ends a response cycle and what a walk does, once each: the flush, the end of the cycle, the retry, the
commands at the head and the loop of GET_NEXT (41_demux.md R161, R168 to R175; 43_transmitter.md R220 to R229). -/

namespace Sys2Proof.Machine

/-! ### Going on from a result -/

@[simp] theorem andThen_next (s : State) (f : State → Result) : andThen (.next s) f = f s := rfl
@[simp] theorem andThen_fault (e : Fault) (f : State → Result) : andThen (.fault e) f = .fault e := rfl
@[simp] theorem andThen_refused (e : Refusal) (f : State → Result) : andThen (.refused e) f = .refused e := rfl

theorem andThen_eq_next {r : Result} {f : State → Result} {t : State} (h : andThen r f = .next t) :
    ∃ u, r = .next u ∧ f u = .next t := by
  cases r with
  | next u => exact ⟨u, rfl, h⟩
  | fault _ => cases h
  | refused _ => cases h

theorem runEvents_append (l r : List Instr) (s : State) :
    runEvents (l ++ r) s = andThen (runEvents l s) (runEvents r) := by
  induction l generalizing s with
  | nil => rfl
  | cons i l ih =>
    simp only [List.cons_append, runEvents]
    cases exec i s with
    | next t => simp only [andThen_next]; exact ih t
    | fault _ => rfl
    | refused _ => rfl

/-! ### The end of the cycle -/

/-- What latching a response and clearing the cycle leave. -/
theorem State.latched_frame (t : State) (image : List Byte) (c : Condition) :
    ((t.latch image).clearCycle).raise c = { t with
      retBuf := (t.latch image).retBuf
      retLen := (t.latch image).retLen
      retValid := true
      txEmitPtr := 0
      txEmitting := true
      txReportSize := 1
      txOvf := false
      cycUnknown := false
      cycAbandon := false
      cycResetSeen := false
      trace := .raised c :: t.trace } := rfl

/-- The state a flush leaves: the response latched, the cycle cleared, TX assembled (R220). -/
theorem State.flushed_frame (s : State) :
    s.flushed = { s with
      txBuf := s.flushed.txBuf
      retBuf := s.flushed.retBuf
      retLen := s.flushed.retLen
      retValid := true
      txEmitPtr := 0
      txEmitting := true
      txReportSize := 1
      txOvf := false
      cycUnknown := false
      cycAbandon := false
      cycResetSeen := false
      rxOvfPending := s.rxOvfPending && s.status != s.cfg.statusOverflow
      trace := .raised (.responseFlushed s.status s.txReportSize) :: s.trace } := by
  unfold State.flushed
  generalize s.status = st
  have ht := State.assemble_frame (s.settleOverflow st) st
  generalize (s.settleOverflow st).assemble st = t at ht
  have hl := State.latched_frame t t.txImage (.responseFlushed st s.txReportSize)
  simp only [hl]
  rw [ht]
  rfl

@[simp] theorem State.flushed_enabled (s : State) : s.flushed.enabled = s.enabled := by rw [State.flushed_frame]
@[simp] theorem State.flushed_rxBuf (s : State) : s.flushed.rxBuf = s.rxBuf := by rw [State.flushed_frame]
@[simp] theorem State.flushed_rxSize (s : State) : s.flushed.rxSize = s.rxSize := by rw [State.flushed_frame]
@[simp] theorem State.flushed_rxReceiving (s : State) : s.flushed.rxReceiving = s.rxReceiving := by rw [State.flushed_frame]
@[simp] theorem State.flushed_rxEscaping (s : State) : s.flushed.rxEscaping = s.rxEscaping := by rw [State.flushed_frame]
@[simp] theorem State.flushed_rxAvailable (s : State) : s.flushed.rxAvailable = s.rxAvailable := by rw [State.flushed_frame]
@[simp] theorem State.flushed_devAddr (s : State) : s.flushed.devAddr = s.devAddr := by rw [State.flushed_frame]
@[simp] theorem State.flushed_senseReady (s : State) : s.flushed.senseReady = s.senseReady := by rw [State.flushed_frame]
@[simp] theorem State.flushed_ledReady (s : State) : s.flushed.ledReady = s.ledReady := by rw [State.flushed_frame]
@[simp] theorem State.flushed_rxReadPtr (s : State) : s.flushed.rxReadPtr = s.rxReadPtr := by rw [State.flushed_frame]
@[simp] theorem State.flushed_cmdOutstanding (s : State) : s.flushed.cmdOutstanding = s.cmdOutstanding := by rw [State.flushed_frame]
@[simp] theorem State.flushed_cfg (s : State) : s.flushed.cfg = s.cfg := by rw [State.flushed_frame]
@[simp] theorem State.flushed_draws (s : State) : s.flushed.draws = s.draws := by rw [State.flushed_frame]
@[simp] theorem State.flushed_offers (s : State) : s.flushed.offers = s.offers := by rw [State.flushed_frame]
@[simp] theorem State.flushed_retValid (s : State) : s.flushed.retValid = true := by rw [State.flushed_frame]
@[simp] theorem State.flushed_txEmitPtr (s : State) : s.flushed.txEmitPtr = 0 := by rw [State.flushed_frame]
@[simp] theorem State.flushed_txEmitting (s : State) : s.flushed.txEmitting = true := by rw [State.flushed_frame]
@[simp] theorem State.flushed_txReportSize (s : State) : s.flushed.txReportSize = 1 := by rw [State.flushed_frame]
@[simp] theorem State.flushed_txOvf (s : State) : s.flushed.txOvf = false := by rw [State.flushed_frame]
@[simp] theorem State.flushed_cycUnknown (s : State) : s.flushed.cycUnknown = false := by rw [State.flushed_frame]
@[simp] theorem State.flushed_cycAbandon (s : State) : s.flushed.cycAbandon = false := by rw [State.flushed_frame]
@[simp] theorem State.flushed_cycResetSeen (s : State) : s.flushed.cycResetSeen = false := by rw [State.flushed_frame]

/-- A flush latches the wire image of the frame of the status and the queued reports (R221, R226). -/
theorem State.flushed_latch (s : State) (h : 1 ≤ s.txReportSize) :
    s.flushed.retBuf = s.retBuf.writeList 0
        (wireImage s.cfg (frameImage s.cfg.hostAddr (s.status :: s.bytes .tx 3 (s.txReportSize - 1)))) ∧
      s.flushed.retLen =
        (wireImage s.cfg (frameImage s.cfg.hostAddr (s.status :: s.bytes .tx 3 (s.txReportSize - 1)))).length := by
  have hi := State.assemble_image (s.settleOverflow s.status) s.status h
  have hb : (s.settleOverflow s.status).bytes .tx 3 (s.txReportSize - 1) = s.bytes .tx 3 (s.txReportSize - 1) :=
    State.bytes_congr fun k _ => State.byte_settleOverflow s s.status .tx (3 + k)
  rw [show (s.settleOverflow s.status).txReportSize = s.txReportSize from rfl,
    show (s.settleOverflow s.status).cfg = s.cfg from rfl, hb] at hi
  rw [← hi]
  exact ⟨rfl, rfl⟩

/-- The release of the frame that every end of a cycle makes (R168). -/
def State.released (s : State) : State := { s with rxAvailable := false, cmdOutstanding := false }

@[simp] theorem State.released_enabled (s : State) : s.released.enabled = s.enabled := rfl
@[simp] theorem State.released_rxBuf (s : State) : s.released.rxBuf = s.rxBuf := rfl
@[simp] theorem State.released_rxSize (s : State) : s.released.rxSize = s.rxSize := rfl
@[simp] theorem State.released_rxReceiving (s : State) : s.released.rxReceiving = s.rxReceiving := rfl
@[simp] theorem State.released_rxEscaping (s : State) : s.released.rxEscaping = s.rxEscaping := rfl
@[simp] theorem State.released_rxOvfPending (s : State) : s.released.rxOvfPending = s.rxOvfPending := rfl
@[simp] theorem State.released_devAddr (s : State) : s.released.devAddr = s.devAddr := rfl
@[simp] theorem State.released_senseReady (s : State) : s.released.senseReady = s.senseReady := rfl
@[simp] theorem State.released_ledReady (s : State) : s.released.ledReady = s.ledReady := rfl
@[simp] theorem State.released_rxReadPtr (s : State) : s.released.rxReadPtr = s.rxReadPtr := rfl
@[simp] theorem State.released_cycAbandon (s : State) : s.released.cycAbandon = s.cycAbandon := rfl
@[simp] theorem State.released_cycUnknown (s : State) : s.released.cycUnknown = s.cycUnknown := rfl
@[simp] theorem State.released_cycResetSeen (s : State) : s.released.cycResetSeen = s.cycResetSeen := rfl
@[simp] theorem State.released_txBuf (s : State) : s.released.txBuf = s.txBuf := rfl
@[simp] theorem State.released_txReportSize (s : State) : s.released.txReportSize = s.txReportSize := rfl
@[simp] theorem State.released_txOvf (s : State) : s.released.txOvf = s.txOvf := rfl
@[simp] theorem State.released_retBuf (s : State) : s.released.retBuf = s.retBuf := rfl
@[simp] theorem State.released_retLen (s : State) : s.released.retLen = s.retLen := rfl
@[simp] theorem State.released_retValid (s : State) : s.released.retValid = s.retValid := rfl
@[simp] theorem State.released_txEmitPtr (s : State) : s.released.txEmitPtr = s.txEmitPtr := rfl
@[simp] theorem State.released_txEmitting (s : State) : s.released.txEmitting = s.txEmitting := rfl
@[simp] theorem State.released_cfg (s : State) : s.released.cfg = s.cfg := rfl
@[simp] theorem State.released_draws (s : State) : s.released.draws = s.draws := rfl
@[simp] theorem State.released_offers (s : State) : s.released.offers = s.offers := rfl
@[simp] theorem State.released_trace (s : State) : s.released.trace = s.trace := rfl
@[simp] theorem State.released_rxAvailable (s : State) : s.released.rxAvailable = false := rfl
@[simp] theorem State.released_cmdOutstanding (s : State) : s.released.cmdOutstanding = false := rfl
@[simp] theorem State.byte_released (s : State) (sp : Space) (i : Nat) : s.released.byte sp i = s.byte sp i := by
  cases sp <;> rfl

/-- Everything `end_cycle` can do: suppress, flush, or, beyond the buffer only, fault (R168; log entry 13). -/
theorem endCycle_cases (s : State) :
    (s.suppresses = true ∧ endCycle s = .next (s.released.clearCycle.raise .responseSuppressed)) ∨
    (s.suppresses = false ∧ s.txReportSize + 2 < s.cfg.txCap ∧ endCycle s = .next s.released.flushed) ∨
    (s.suppresses = false ∧ s.cfg.txCap ≤ s.txReportSize + 2 ∧
      endCycle s = .fault (.noSuchIndex .tx (s.txReportSize + 2))) := by
  unfold endCycle flush
  cases hs : s.suppresses
  · by_cases h : s.txReportSize + 2 < s.cfg.txCap
    · exact .inr (.inl ⟨rfl, h, by simp [State.hasIndex, Config.capacity, h, State.released]⟩)
    · exact .inr (.inr ⟨rfl, by omega, by simp [State.hasIndex, Config.capacity, h]⟩)
  · exact .inl ⟨rfl, by simp [State.released]⟩

/-! ### The commands at the head -/

/-- Everything RESET can write (R170, R171). -/
theorem State.resetHead_cases (s : State) (arg : Option Byte) :
    (arg = some s.cfg.resetArg ∧
      s.resetHead arg = ({ s with devAddr := 0, cycResetSeen := true }.driveReady false).advance 2) ∨
    (arg ≠ some s.cfg.resetArg ∧ s.resetHead arg = s.malformed s.cfg.cmdReset) := by
  unfold State.resetHead
  by_cases h : arg = some s.cfg.resetArg
  · exact .inl ⟨h, if_pos h⟩
  · exact .inr ⟨h, if_neg h⟩

/-- Everything SETADDR can write (R171 to R174). -/
theorem State.setaddrHead_cases (s : State) (arg : Option Byte) :
    (arg = none ∧ s.setaddrHead arg = s.malformed s.cfg.cmdSetaddr) ∨
    (∃ a, arg = some a ∧ s.addrAccepted a = true ∧
      s.setaddrHead arg = (({ s with devAddr := a }.driveReady true).append s.cfg.reportOk).advance 2) ∨
    (∃ a, arg = some a ∧ s.addrAccepted a = false ∧
      s.setaddrHead arg = (s.append s.cfg.reportParamIgnored).advance 2) := by
  cases arg with
  | none => exact .inl ⟨rfl, rfl⟩
  | some a =>
    cases h : s.addrAccepted a
    · exact .inr (.inr ⟨a, rfl, h, by simp [State.setaddrHead, h]⟩)
    · exact .inr (.inl ⟨a, rfl, h, by simp [State.setaddrHead, h]⟩)

/-! ### The loop of GET_NEXT -/

/-- A pass at the end of DATA, or of an abandoned frame, ends the cycle (R168). -/
theorem walk_end {s : State} (h : s.cycAbandon = true ∨ s.dataEnd ≤ s.rxReadPtr) (n : Nat) :
    walk (n + 1) s = andThen (endCycle s) answerNone := by
  rcases h with h | h <;> simp [walk, h]

/-- A pass at a command boundary runs the command at the head (R161). -/
theorem walk_head {s : State} (ha : s.cycAbandon = false) (hp : s.rxReadPtr < s.dataEnd) (hc : s.dataEnd ≤ s.cfg.rxCap)
    (n : Nat) :
    walk (n + 1) s =
      match headClassOf s.cfg s.headOpcode with
      | .reset => walk n (s.resetHead s.headOperand)
      | .setaddr => walk n (s.setaddrHead s.headOperand)
      | .retry => execRetry s
      | .opaqueCmd => execOpaque s.headOpcode s := by
  simp only [walk, ha, Bool.false_or, decide_eq_true_eq]
  refine (if_neg (by omega)).trans ((if_neg (by omega)).trans ?_)
  cases headClassOf s.cfg s.headOpcode <;> rfl

/-- A RESET at the head moves the cursor by two, or abandons the frame. -/
theorem State.resetHead_progress (s : State) (arg : Option Byte) :
    (s.resetHead arg).cycAbandon = true ∨
      ((s.resetHead arg).rxReadPtr = s.rxReadPtr + 2 ∧ (s.resetHead arg).rxSize = s.rxSize) := by
  rcases s.resetHead_cases arg with ⟨-, h⟩ | ⟨-, h⟩ <;> rw [h]
  · exact .inr ⟨rfl, rfl⟩
  · exact .inl rfl

/-- A SETADDR at the head moves the cursor by two, or abandons the frame. -/
theorem State.setaddrHead_progress (s : State) (arg : Option Byte) :
    (s.setaddrHead arg).cycAbandon = true ∨
      ((s.setaddrHead arg).rxReadPtr = s.rxReadPtr + 2 ∧ (s.setaddrHead arg).rxSize = s.rxSize) := by
  rcases s.setaddrHead_cases arg with ⟨-, h⟩ | ⟨a, -, -, h⟩ | ⟨a, -, -, h⟩ <;> rw [h]
  · exact .inl rfl
  · exact .inr ⟨by simp, by simp⟩
  · exact .inr ⟨by simp, by simp⟩

/-- `rem + 1` passes are enough: more change nothing (R161, R351; log entry 17). -/
theorem walk_passes (n : Nat) : ∀ (m : Nat) (s : State), (s.cycAbandon = true ∨ s.windowLen < n) → 1 ≤ n → n ≤ m →
    walk m s = walk n s := by
  induction n with
  | zero => intro m s _ h; omega
  | succ n ih =>
    intro m s h _ hm
    obtain ⟨m, rfl⟩ : ∃ k, m = k + 1 := ⟨m - 1, by omega⟩
    have hgo : ∀ t : State, (t.cycAbandon = true ∨ (t.rxReadPtr = s.rxReadPtr + 2 ∧ t.rxSize = s.rxSize)) →
        s.cycAbandon = false → s.rxReadPtr < s.dataEnd → walk m t = walk n t := by
      intro t ht ha hp
      have hw : s.windowLen < n + 1 := h.resolve_left (by simp [ha])
      simp only [State.windowLen, State.dataEnd] at hw hp
      refine ih m t ?_ (by omega) (by omega)
      rcases ht with ht | ⟨h1, h2⟩
      · exact .inl ht
      · right; simp only [State.windowLen, State.dataEnd, h1, h2]; omega
    by_cases hend : s.cycAbandon = true ∨ s.dataEnd ≤ s.rxReadPtr
    · rw [walk_end hend, walk_end hend]
    · rw [not_or, Bool.not_eq_true, Nat.not_le] at hend
      by_cases hc : s.dataEnd ≤ s.cfg.rxCap
      · rw [walk_head hend.1 hend.2 hc, walk_head hend.1 hend.2 hc]
        cases headClassOf s.cfg s.headOpcode with
        | reset => exact hgo _ (s.resetHead_progress _) hend.1 hend.2
        | setaddr => exact hgo _ (s.setaddrHead_progress _) hend.1 hend.2
        | retry => rfl
        | opaqueCmd => rfl
      · have hp : ¬ s.dataEnd ≤ s.rxReadPtr := by omega
        simp [walk, hend.1, hp, show s.cfg.rxCap < s.dataEnd by omega]

/-- What a walk does, command by command: a relation that the end of the cycle and each command at the head make, and
that RESET and SETADDR pass on, holds between a walk's start and its end. `Pre` is what each pass may assume. -/
theorem walk_relation {Pre : State → Prop} {R : State → State → Prop}
    (hrefl : ∀ s, Pre s → R s s) (htrans : ∀ s t u, R s t → R t u → R s u)
    (hend : ∀ s t, Pre s → andThen (endCycle s) answerNone = .next t → R s t)
    (hreset : ∀ s, Pre s → s.cycAbandon = false → s.rxReadPtr < s.dataEnd →
      headClassOf s.cfg s.headOpcode = .reset → R s (s.resetHead s.headOperand) ∧ Pre (s.resetHead s.headOperand))
    (hsetaddr : ∀ s, Pre s → s.cycAbandon = false → s.rxReadPtr < s.dataEnd →
      headClassOf s.cfg s.headOpcode = .setaddr → R s (s.setaddrHead s.headOperand) ∧ Pre (s.setaddrHead s.headOperand))
    (hretry : ∀ s t, Pre s → execRetry s = .next t → R s t)
    (hopaque : ∀ s t, Pre s → s.rxReadPtr < s.dataEnd → headClassOf s.cfg s.headOpcode = .opaqueCmd →
      execOpaque s.headOpcode s = .next t → R s t)
    (n : Nat) : ∀ s t, Pre s → walk n s = .next t → R s t := by
  induction n with
  | zero => intro s t hp h; cases h; exact hrefl s hp
  | succ n ih =>
    intro s t hp h
    by_cases hd : s.cycAbandon = true ∨ s.dataEnd ≤ s.rxReadPtr
    · rw [walk_end hd] at h; exact hend s t hp h
    · rw [not_or, Bool.not_eq_true, Nat.not_le] at hd
      by_cases hc : s.dataEnd ≤ s.cfg.rxCap
      · rw [walk_head hd.1 hd.2 hc] at h
        cases hcl : headClassOf s.cfg s.headOpcode <;> rw [hcl] at h
        · have hr := hreset s hp hd.1 hd.2 hcl
          exact htrans s _ t hr.1 (ih _ t hr.2 h)
        · have hr := hsetaddr s hp hd.1 hd.2 hcl
          exact htrans s _ t hr.1 (ih _ t hr.2 h)
        · exact hretry s t hp h
        · exact hopaque s t hp hd.2 hcl h
      · have hn : ¬ s.dataEnd ≤ s.rxReadPtr := by omega
        simp [walk, hd.1, hn, show s.cfg.rxCap < s.dataEnd by omega] at h

/-! ### No operation reads the trace

So a walk that starts behind a longer trace is the same walk with the same trace added behind it. -/

/-- A state whose trace has a past behind it. -/
def State.withPast (s : State) (past : List Note) : State := { s with trace := s.trace ++ past }

theorem State.withPast_self (s : State) : { s with trace := [] }.withPast s.trace = s := rfl

theorem State.byte_withPast (s : State) (p : List Note) (sp : Space) (i : Nat) :
    (s.withPast p).byte sp i = s.byte sp i := by
  cases sp <;> rfl

theorem State.bytes_withPast (s : State) (p : List Note) (sp : Space) (i n : Nat) :
    (s.withPast p).bytes sp i n = s.bytes sp i n :=
  State.bytes_congr fun k _ => State.byte_withPast s p sp (i + k)

theorem State.headOperand_withPast (s : State) (p : List Note) : (s.withPast p).headOperand = s.headOperand := by
  unfold State.headOperand
  rw [State.byte_withPast]
  rfl

theorem State.append_withPast (s : State) (p : List Note) (v : Byte) : (s.withPast p).append v = (s.append v).withPast p := by
  unfold State.append
  by_cases h : s.txReportSize < s.cfg.qMax
  · rw [if_pos h, if_pos (show (s.withPast p).txReportSize < (s.withPast p).cfg.qMax from h)]; rfl
  · rw [if_neg h, if_neg (show ¬ (s.withPast p).txReportSize < (s.withPast p).cfg.qMax from h)]; rfl

theorem State.resetHead_withPast (s : State) (p : List Note) (arg : Option Byte) :
    (s.withPast p).resetHead arg = (s.resetHead arg).withPast p := by
  unfold State.resetHead
  by_cases h : arg = some s.cfg.resetArg
  · rw [if_pos h, if_pos (show arg = some (s.withPast p).cfg.resetArg from h)]; rfl
  · rw [if_neg h, if_neg (show ¬ arg = some (s.withPast p).cfg.resetArg from h)]; rfl

theorem State.setaddrHead_withPast (s : State) (p : List Note) (arg : Option Byte) :
    (s.withPast p).setaddrHead arg = (s.setaddrHead arg).withPast p := by
  cases arg with
  | none => rfl
  | some a =>
    simp only [State.setaddrHead]
    cases h : s.addrAccepted a
    · rw [show (s.withPast p).addrAccepted a = false from h]
      exact congrArg (State.advance · 2) (State.append_withPast s p _)
    · rw [show (s.withPast p).addrAccepted a = true from h]
      exact congrArg (State.advance · 2) (State.append_withPast ({ s with devAddr := a }.driveReady true) p _)

theorem State.assemble_withPast (s : State) (p : List Note) (st : Byte) :
    (s.withPast p).assemble st = (s.assemble st).withPast p := by
  unfold State.assemble
  dsimp only
  rw [show (((s.withPast p).store .tx 0 (s.withPast p).cfg.hostAddr).store .tx 1
      (BitVec.ofNat 8 ((s.withPast p).txReportSize + 1))).store .tx 2 st =
    (((s.store .tx 0 s.cfg.hostAddr).store .tx 1 (BitVec.ofNat 8 (s.txReportSize + 1))).store .tx 2 st).withPast p
    from rfl, State.bytes_withPast]
  rfl

theorem State.flushed_withPast (s : State) (p : List Note) : (s.withPast p).flushed = s.flushed.withPast p := by
  unfold State.flushed
  dsimp only
  rw [show (s.withPast p).settleOverflow (s.withPast p).status = (s.settleOverflow s.status).withPast p from rfl,
    show (s.withPast p).status = s.status from rfl, State.assemble_withPast,
    show State.txImage (State.withPast _ p) = State.txImage _ from State.bytes_withPast _ p .tx 0 _]
  rfl

theorem endCycle_withPast (s : State) (p : List Note) :
    endCycle (s.withPast p) = andThen (endCycle s) fun t => .next (t.withPast p) := by
  have hs : (s.withPast p).suppresses = s.suppresses := rfl
  rcases endCycle_cases s with ⟨h, h'⟩ | ⟨h, hq, h'⟩ | ⟨h, hq, h'⟩ <;>
    rcases endCycle_cases (s.withPast p) with ⟨k, k'⟩ | ⟨k, kq, k'⟩ | ⟨k, kq, k'⟩ <;> rw [h', k']
  · rfl
  · rw [hs, h] at k; cases k
  · rw [hs, h] at k; cases k
  · rw [hs, h] at k; cases k
  · exact congrArg Host.Outcome.next (State.flushed_withPast s.released p)
  · exact absurd hq (Nat.not_lt.mpr kq)
  · rw [hs, h] at k; cases k
  · exact absurd kq (Nat.not_lt.mpr hq)
  · rfl

theorem State.retransmit_withPast (s : State) (p : List Note) :
    (s.withPast p).retransmit = s.retransmit.withPast p := by
  unfold State.retransmit
  by_cases h : s.retValid = true
  · rw [if_pos h, if_pos (show (s.withPast p).retValid = true from h)]; rfl
  · rw [if_neg h, if_neg (show ¬ (s.withPast p).retValid = true from h)]; rfl

/-- A walk reads no trace. -/
theorem walk_withPast (p : List Note) (n : Nat) : ∀ s : State,
    walk n (s.withPast p) = andThen (walk n s) fun t => .next (t.withPast p) := by
  induction n with
  | zero => intro s; rfl
  | succ n ih =>
    intro s
    by_cases hd : s.cycAbandon = true ∨ s.dataEnd ≤ s.rxReadPtr
    · rw [walk_end hd, walk_end (s := s.withPast p) hd, endCycle_withPast]
      cases endCycle s <;> rfl
    · rw [not_or, Bool.not_eq_true, Nat.not_le] at hd
      by_cases hc : s.dataEnd ≤ s.cfg.rxCap
      · rw [walk_head hd.1 hd.2 hc, walk_head (s := s.withPast p) hd.1 hd.2 hc, State.headOperand_withPast,
          State.resetHead_withPast, State.setaddrHead_withPast,
          show (s.withPast p).headOpcode = s.headOpcode from State.byte_withPast s p .rx s.rxReadPtr,
          show (s.withPast p).cfg = s.cfg from rfl]
        cases headClassOf s.cfg s.headOpcode with
        | reset => exact ih _
        | setaddr => exact ih _
        | retry =>
          exact congrArg (fun t : State => Host.Outcome.next (t.answer .none))
            (State.retransmit_withPast s.released.clearCycle p)
        | opaqueCmd => rfl
      · have hn : ¬ s.dataEnd ≤ s.rxReadPtr := by omega
        have hn' : ¬ (s.withPast p).dataEnd ≤ (s.withPast p).rxReadPtr := hn
        simp [walk, hd.1, hn, hn', show s.cfg.rxCap < s.dataEnd by omega,
          show (s.withPast p).cfg.rxCap < (s.withPast p).dataEnd from (show s.cfg.rxCap < s.dataEnd by omega),
          show (s.withPast p).cycAbandon = false from hd.1]
        rfl

/-- Everything GET_NEXT can do (R160, R161, R165 to R167). -/
theorem execGetNext_cases (s : State) :
    (s.enabled = false ∧ execGetNext s = .next ((s.raise (.callerProtocol .getNext)).answer .none)) ∨
    (s.enabled = true ∧ s.rxAvailable = false ∧ execGetNext s = .next (s.answer .none)) ∨
    (s.enabled = true ∧ s.rxAvailable = true ∧ s.cmdOutstanding = true ∧
      execGetNext s = .next (s.answer (.cmd s.windowLen))) ∨
    (s.enabled = true ∧ s.rxAvailable = true ∧ s.cmdOutstanding = false ∧ s.txEmitting = true ∧
      execGetNext s = .next s) ∨
    (s.enabled = true ∧ s.rxAvailable = true ∧ s.cmdOutstanding = false ∧ s.txEmitting = false ∧
      execGetNext s = andThen (walk (s.windowLen + 1) s) fun t => .next (s.noteReady t)) := by
  unfold execGetNext
  cases s.enabled <;> cases s.rxAvailable <;> cases s.cmdOutstanding <;> cases s.txEmitting <;> simp

end Sys2Proof.Machine
end

