-- ==== Sys2Proof/Laws/Events.lean ====
section
/-! SUPPORT. What an event can have done, once each: if its meaning answers `next t`, then `t` is one of these. -/

namespace Sys2Proof.Machine

/-! ### The end of a cycle and the commands at the head -/

/-- The end of a cycle, with GET_NEXT's answer. -/
theorem endCycle_next {s t : State} (h : andThen (endCycle s) answerNone = .next t) :
    t = (s.released.clearCycle.raise .responseSuppressed).answer .none ∧ s.suppresses = true ∨
    t = s.released.flushed.answer .none ∧ s.suppresses = false ∧ s.txReportSize + 2 < s.cfg.txCap := by
  rcases endCycle_cases s with ⟨hs, h'⟩ | ⟨hs, hq, h'⟩ | ⟨-, -, h'⟩ <;> rw [h'] at h <;> cases h
  · exact .inl ⟨rfl, hs⟩
  · exact .inr ⟨rfl, hs, hq⟩

theorem execReset_next {s t : State} {arg : Option Byte} (h : execReset arg s = .next t) :
    t = s.noteReady (s.resetHead arg) := by
  cases h; rfl

theorem execSetaddr_next {s t : State} {arg : Option Byte} (h : execSetaddr arg s = .next t) :
    t = s.noteReady (s.setaddrHead arg) := by
  cases h; rfl

theorem execRetry_next {s t : State} (h : execRetry s = .next t) :
    t = (s.released.clearCycle.retransmit).answer .none := by
  cases h; rfl

/-! ### The receive events -/

theorem rxGate_next {s t : State} {f : State → Result} (h : rxGate s f = .next t) :
    t = s ∨ (s.enabled = true ∧ s.rxAvailable = false ∧ f s = .next t) := by
  rcases rxGate_cases s f with h' | ⟨h1, h2, h'⟩ <;> rw [h'] at h
  · cases h; exact .inl rfl
  · exact .inr ⟨h1, h2, h⟩

theorem execRxSync_next {s t : State} (h : execRxSync s = .next t) :
    t = s ∨ (s.enabled = true ∧ s.rxAvailable = false ∧
      (t = rxStart s ∨ (s.rxReceiving = true ∧ rxStore s.cfg.sync s = .next t))) := by
  rcases rxGate_next h with h | ⟨h1, h2, h⟩
  · exact .inl h
  · refine .inr ⟨h1, h2, ?_⟩
    split at h
    · cases h; exact .inl rfl
    · rename_i hh
      refine .inr ⟨?_, h⟩
      cases hr : s.rxReceiving
      · simp [hr] at hh
      · rfl

theorem execRxMark_next {s t : State} (h : execRxMark s = .next t) :
    t = s ∨ (s.enabled = true ∧ s.rxAvailable = false ∧ s.rxReceiving = true ∧ t = { s with rxEscaping := true }) := by
  rcases rxGate_next h with h | ⟨h1, h2, h⟩
  · exact .inl h
  · split at h
    · cases h; exact .inr ⟨h1, h2, ‹_›, rfl⟩
    · cases h; exact .inl rfl

theorem execRxData_next {s t : State} {b : Byte} (h : execRxData b s = .next t) :
    t = s ∨ (s.enabled = true ∧ s.rxAvailable = false ∧ s.rxReceiving = true ∧ rxStore b s = .next t) := by
  rcases rxGate_next h with h | ⟨h1, h2, h⟩
  · exact .inl h
  · split at h
    · exact .inr ⟨h1, h2, ‹_›, h⟩
    · cases h; exact .inl rfl

/-! ### The caller's operations and the transmit event -/

theorem execGetNext_next {s t : State} (h : execGetNext s = .next t) :
    (s.enabled = false ∧ t = (s.raise (.callerProtocol .getNext)).answer .none) ∨
    (s.enabled = true ∧ s.rxAvailable = false ∧ t = s.answer .none) ∨
    (s.enabled = true ∧ s.rxAvailable = true ∧ s.cmdOutstanding = true ∧ t = s.answer (.cmd s.windowLen)) ∨
    (s.enabled = true ∧ s.rxAvailable = true ∧ s.cmdOutstanding = false ∧ s.txEmitting = true ∧ t = s) ∨
    (s.enabled = true ∧ s.rxAvailable = true ∧ s.cmdOutstanding = false ∧ s.txEmitting = false ∧
      ∃ u, walk (s.windowLen + 1) s = .next u ∧ t = s.noteReady u) := by
  rcases execGetNext_cases s with ⟨h1, h'⟩ | ⟨h1, h2, h'⟩ | ⟨h1, h2, h3, h'⟩ | ⟨h1, h2, h3, h4, h'⟩ | ⟨h1, h2, h3, h4, h'⟩ <;>
    rw [h'] at h
  · cases h; exact .inl ⟨h1, rfl⟩
  · cases h; exact .inr (.inl ⟨h1, h2, rfl⟩)
  · cases h; exact .inr (.inr (.inl ⟨h1, h2, h3, rfl⟩))
  · cases h; exact .inr (.inr (.inr (.inl ⟨h1, h2, h3, h4, rfl⟩)))
  · obtain ⟨u, hu, h⟩ := andThen_eq_next h
    cases h; exact .inr (.inr (.inr (.inr ⟨h1, h2, h3, h4, u, hu, rfl⟩)))

theorem execEnd_next {s t : State} (h : execEnd s = .next t) :
    (s.enabled = true ∧ t = s.resetCore.answer .none) ∨
    (s.enabled = false ∧ t = (s.raise (.callerProtocol .endOp)).answer .none) := by
  unfold execEnd at h
  split at h
  · cases h; exact .inl ⟨‹_›, rfl⟩
  · cases h; exact .inr ⟨by simpa using ‹¬ s.enabled = true›, rfl⟩

theorem execConsume_next {s t : State} {n : Byte} (h : execConsume n s = .next t) :
    (s.commandOut = true ∧ 1 ≤ n.toNat ∧ n.toNat ≤ s.windowLen ∧
      t = ({ s with cmdOutstanding := false }.advance n.toNat).answer .none) ∨
    (s.commandOut = true ∧ t = ({ s with cmdOutstanding := false, cycUnknown := true, cycAbandon := true }.raise
      (.badConsume n s.windowLen)).answer .none) ∨
    t = (s.raise (.callerProtocol .consume)).answer .none := by
  unfold execConsume at h
  split at h
  · dsimp only at h
    split at h
    · rename_i ho hh; cases h; exact .inl ⟨ho, hh.1, hh.2, rfl⟩
    · cases h; exact .inr (.inl ⟨‹_›, rfl⟩)
  · cases h; exact .inr (.inr rfl)

theorem execUnknownCmd_next {s t : State} (h : execUnknownCmd s = .next t) :
    (s.commandOut = true ∧ t = ({ s with cmdOutstanding := false, cycUnknown := true, cycAbandon := true }.raise
      (.unknownOpcode s.headOpcode)).answer .none) ∨
    t = (s.raise (.callerProtocol .unknownCmd)).answer .none := by
  unfold execUnknownCmd at h
  split at h
  · split at h
    · cases h; exact .inl ⟨‹_›, rfl⟩
    · cases h
  · cases h; exact .inr rfl

theorem execPushReport_next {s t : State} {c : Byte} (h : execPushReport c s = .next t) :
    (s.enabled = true ∧ s.rxAvailable = true ∧
      t = { s.append c with cycAbandon := s.cycAbandon || c == s.cfg.reportParamNoresp }.answer .none) ∨
    t = (s.raise (.callerProtocol .pushReport)).answer .none := by
  unfold execPushReport at h
  split at h
  · rename_i ho
    rw [Bool.and_eq_true] at ho
    dsimp only at h
    rw [State.append_cycAbandon] at h
    cases h
    exact .inl ⟨ho.1, ho.2, rfl⟩
  · cases h; exact .inr rfl

theorem execPushData_next {s t : State} {b : Byte} (h : execPushData b s = .next t) :
    (s.enabled = true ∧ s.rxAvailable = true ∧ t = (s.append b).answer .none) ∨
    t = (s.raise (.callerProtocol .pushData)).answer .none := by
  unfold execPushData at h
  split at h
  · rename_i ho
    rw [Bool.and_eq_true] at ho
    cases h
    exact .inl ⟨ho.1, ho.2, rfl⟩
  · cases h; exact .inr rfl

theorem execTxEmit_next {s t : State} (h : execTxEmit s = .next t) :
    (s.txEmitting = true ∧ s.txEmitPtr < s.cfg.retCap ∧
      t = { s with txEmitPtr := s.txEmitPtr + 1, txEmitting := decide (s.txEmitPtr + 1 ≠ s.retLen) }.emit
        (s.byte .ret s.txEmitPtr)) ∨
    (s.txEmitting = false ∧ t = s) := by
  unfold execTxEmit at h
  split at h
  · split at h
    · rename_i hi; rw [State.hasIndex_iff] at hi; cases h; exact .inl ⟨‹_›, hi, rfl⟩
    · cases h
  · cases h; exact .inr ⟨by simpa using ‹¬ s.txEmitting = true›, rfl⟩

end Sys2Proof.Machine
end

