-- ==== Sys2Proof/Laws/Fetch.lean ====
section
/-! SUPPORT. Which offer transfers next, said once: offers that wait are passed over and keep their places, the first one that
does not wait is taken (00_scope.md R10, R13; log entries 5 and 6). -/

namespace Sys2Proof.Machine

/-- Each offer of `l` is held, or an agent of `waiting` or an earlier offer of `l` stands before it. -/
def State.AllWaitBehind (s : State) (waiting : List Agent) (l : List Offer) : Prop :=
  ∀ l₁ o l₂, l = l₁ ++ o :: l₂ →
    held (decodeOffer s.cfg o) s = true ∨ offerAgent o ∈ waiting ∨ ∃ p ∈ l₁, offerAgent p = offerAgent o

theorem State.allWaitBehind_nil (s : State) (l : List Offer) : s.AllWaitBehind [] l ↔ s.AllWait l := by
  simp [State.AllWaitBehind, State.AllWait]

/-- The first offer of a list that waits, and the rest behind it. -/
theorem State.AllWaitBehind.cons {s : State} {waiting : List Agent} {o : Offer} {l : List Offer}
    (h : s.AllWaitBehind waiting (o :: l)) :
    (waiting.contains (offerAgent o) || held (decodeOffer s.cfg o) s) = true ∧
      s.AllWaitBehind (offerAgent o :: waiting) l := by
  refine ⟨?_, ?_⟩
  · rcases h [] o l rfl with h | h | ⟨p, hp, -⟩
    · simp [h]
    · simp [h]
    · cases hp
  · intro l₁ p l₂ hl
    rcases h (o :: l₁) p l₂ (by rw [hl]; rfl) with h | h | ⟨q, hq, hqp⟩
    · exact .inl h
    · exact .inr (.inl (List.mem_cons_of_mem _ h))
    · rcases List.mem_cons.mp hq with rfl | hq
      · exact .inr (.inl (by simp [hqp]))
      · exact .inr (.inr ⟨q, hq, hqp⟩)

/-- Where every offer waits, none is taken. -/
theorem pickOffer_waiting (s : State) (l : List Offer) :
    ∀ waiting, s.AllWaitBehind waiting l → pickOffer s waiting l = none := by
  induction l with
  | nil => intro _ _; rfl
  | cons o l ih =>
    intro waiting h
    rw [pickOffer, if_pos h.cons.1, ih _ h.cons.2, Option.map_none]

/-- The first offer that does not wait is taken; those before it stay. -/
theorem pickOffer_free (s : State) (o : Offer) (rest l : List Offer) (hh : held (decodeOffer s.cfg o) s = false) :
    ∀ waiting, s.AllWaitBehind waiting l → offerAgent o ∉ waiting → (∀ p ∈ l, offerAgent p ≠ offerAgent o) →
      pickOffer s waiting (l ++ o :: rest) = some (o, l ++ rest) := by
  induction l with
  | nil =>
    intro waiting _ ho _
    rw [List.nil_append, pickOffer, if_neg (by simp [hh, ho])]
    rfl
  | cons p l ih =>
    intro waiting h ho hl
    rw [List.cons_append, pickOffer, if_pos h.cons.1, ih _ h.cons.2 ?_ fun q hq => hl q (List.mem_cons_of_mem _ hq)]
    · rfl
    · rw [List.mem_cons, not_or]
      exact ⟨fun he => hl p (by simp) he.symm, ho⟩

end Sys2Proof.Machine
end

