-- ==== Sys2Proof/Laws/PerInstr.lean ====
section
/-! SUPPORT. The statements made once per constructor of Instr. EncodesItsRow: the encoded form of an instruction has the
format and the fixed bits of its row of spec/opcode_table.json (30_encoding.md R85, R90, R100 to R104). -/

namespace Sys2Proof.Laws

/-- The encoded form `e` fits the row of the table that has the given instruction's mnemonic: its column "format", and
its columns "match" and "mask" (with the configuration's value where R7 makes it a parameter). -/
def FitsRow (c : Config) (e : Encoded) : Instr → Prop
  | .nop => ∃ w, e = .port (.callerOp w) ∧ w &&& (0x700 : CallerWord) = (0x000 : CallerWord)
  | .getNext => ∃ w, e = .port (.callerOp w) ∧ w &&& (0x700 : CallerWord) = (0x100 : CallerWord)
  | .consume n => ∃ w, e = .port (.callerOp w) ∧ w &&& (0x700 : CallerWord) = (0x200 : CallerWord) ∧ w &&& (0x0FF : CallerWord) = n.setWidth 11
  | .pushReport r => ∃ w, e = .port (.callerOp w) ∧ w &&& (0x700 : CallerWord) = (0x300 : CallerWord) ∧ w &&& (0x0FF : CallerWord) = r.setWidth 11
  | .pushData b => ∃ w, e = .port (.callerOp w) ∧ w &&& (0x700 : CallerWord) = (0x400 : CallerWord) ∧ w &&& (0x0FF : CallerWord) = b.setWidth 11
  | .beginOp => ∃ w, e = .port (.callerOp w) ∧ w &&& (0x700 : CallerWord) = (0x500 : CallerWord)
  | .endOp => ∃ w, e = .port (.callerOp w) ∧ w &&& (0x700 : CallerWord) = (0x600 : CallerWord)
  | .unknownCmd => ∃ w, e = .port (.callerOp w) ∧ w &&& (0x700 : CallerWord) = (0x700 : CallerWord)
  | .rxSync => e = .port (.rxByte c.sync)
  | .rxMark => e = .port (.rxByte c.esc)
  | .rxData b => e = .port (.rxByte b) ∧ b ≠ c.sync ∧ b ≠ c.esc
  | .txEmit => e = .port .txReady
  | .reset arg => e = .head (c.cmdReset :: arg.toList)
  | .setaddr a => e = .head (c.cmdSetaddr :: a.toList)
  | .retry => ∃ rest, e = .head (c.cmdRetry :: rest)
  | .opaqueCmd op => ∃ rest, e = .head (op :: rest) ∧ op ≠ c.cmdReset ∧ op ≠ c.cmdSetaddr ∧ op ≠ c.cmdRetry
  | .rst => e = .port .rst

/-- An operand of the caller bus lies in the low eight bits of the word, its code in the high three. -/
theorem callerWord_fields (op : CallerOp) (arg : Byte) :
    callerWord op arg &&& (0x700 : CallerWord) = (op.code.setWidth 11 : CallerWord) <<< (8 : Nat) ∧
      callerWord op arg &&& (0x0FF : CallerWord) = arg.setWidth 11 := by
  have h7 : ∀ i : Fin 11, (0x700 : CallerWord).getLsbD i = decide (8 ≤ i.val) := by decide
  have h0 : ∀ i : Fin 11, (0x0FF : CallerWord).getLsbD i = decide (i.val < 8) := by decide
  constructor <;> apply BitVec.eq_of_getLsbD_eq <;> intro i hi
  · have hm : (0x700 : CallerWord).getLsbD i = decide (8 ≤ i) := h7 ⟨i, hi⟩
    rw [BitVec.getLsbD_and, hm, callerWord, BitVec.getLsbD_append]
    by_cases h : i < 8
    · simp [h]
    · simp [h, hi, show 8 ≤ i by omega]
  · have hm : (0x0FF : CallerWord).getLsbD i = decide (i < 8) := h0 ⟨i, hi⟩
    rw [BitVec.getLsbD_and, hm, callerWord, BitVec.getLsbD_append]
    by_cases h : i < 8
    · simp [h, hi]
    · simp [h, BitVec.getLsbD_of_ge arg i (by omega)]

namespace EncodesItsRow

/-- The encoded form of a well-formed instruction fits its row. -/
def Statement (i : Instr) : Prop := ∀ c : Config, i.wf c = true → FitsRow c (encode c i) i

theorem nop : Statement .nop := fun _ _ => ⟨_, rfl, (callerWord_fields .nop 0).1⟩
theorem getNext : Statement .getNext := fun _ _ => ⟨_, rfl, (callerWord_fields .getNext 0).1⟩
theorem consume (n : Byte) : Statement (.consume n) := fun _ _ => ⟨_, rfl, callerWord_fields .consume n⟩
theorem pushReport (r : Byte) : Statement (.pushReport r) := fun _ _ => ⟨_, rfl, callerWord_fields .pushReport r⟩
theorem pushData (b : Byte) : Statement (.pushData b) := fun _ _ => ⟨_, rfl, callerWord_fields .pushData b⟩
theorem beginOp : Statement .beginOp := fun _ _ => ⟨_, rfl, (callerWord_fields .beginOp 0).1⟩
theorem endOp : Statement .endOp := fun _ _ => ⟨_, rfl, (callerWord_fields .endOp 0).1⟩
theorem unknownCmd : Statement .unknownCmd := fun _ _ => ⟨_, rfl, (callerWord_fields .unknownCmd 0).1⟩
theorem rxSync : Statement .rxSync := fun _ _ => rfl
theorem rxMark : Statement .rxMark := fun _ _ => rfl
theorem rxData (b : Byte) : Statement (.rxData b) := fun c h => by
  simp only [Instr.wf, Bool.and_eq_true, bne_iff_ne] at h
  exact ⟨rfl, h⟩
theorem txEmit : Statement .txEmit := fun _ _ => rfl
theorem reset (arg : Option Byte) : Statement (.reset arg) := fun _ _ => rfl
theorem setaddr (a : Option Byte) : Statement (.setaddr a) := fun _ _ => rfl
theorem retry : Statement .retry := fun _ _ => ⟨_, rfl⟩
theorem opaqueCmd (op : Byte) : Statement (.opaqueCmd op) := fun c h => by
  simp only [Instr.wf, Bool.and_eq_true, bne_iff_ne, and_assoc] at h
  exact ⟨_, rfl, h⟩
theorem rst : Statement .rst := fun _ _ => rfl

end EncodesItsRow

end Sys2Proof.Laws
end

