-- ==== Sys2Proof/Tests/Slice0.lean ====
section
/-! SUPPORT. Tests: ill-formed terms the checks refuse, words written out from the spec's encodings, one step of each
instruction, and for each obligation with hypotheses states that meet them. Expected values are the vectors of
95_test_vectors.md (section named at each) or hand calculation from the rules. -/

namespace Sys2Proof.Tests

open Sys2Proof.Machine

/-! ### Well-formedness (00_scope.md R8; 30_encoding.md R85, R90) -/

theorem test_default_is_wf : Config.default.wf = true := by decide
theorem test_wf1_equal_markers : { Config.default with esc := 0xE0 }.wf = false := by decide
theorem test_wf2_decrement_is_marker : { Config.default with esc := 0xDF }.wf = false := by decide
theorem test_wf3_broadcast_assignable : { Config.default with broadcast := 31 }.wf = false := by decide
theorem test_wf3_host_is_broadcast : { Config.default with hostAddr := 0xFF }.wf = false := by decide
theorem test_wf3_zero_assignable : { Config.default with addrMin := 0 }.wf = false := by decide
theorem test_wf4_equal_opcodes : { Config.default with cmdRetry := 0xF0 }.wf = false := by decide
theorem test_wf5_small_rx : { Config.default with rxCap := 2 }.wf = false := by decide
theorem test_wf5_large_tx : { Config.default with txCap := 257, qMax := 254, retCap := 515 }.wf = false := by decide
theorem test_wf6_wrong_qmax : { Config.default with qMax := 252 }.wf = false := by decide
theorem test_wf7_equal_reports : { Config.default with reportBusy := 0x01 }.wf = false := by decide
theorem test_wf_rxData_sync : (Instr.rxData 0xE0).wf Config.default = false := by decide
theorem test_wf_rxData_esc : (Instr.rxData 0xD0).wf Config.default = false := by decide
theorem test_wf_opaque_reset : (Instr.opaqueCmd 0xF0).wf Config.default = false := by decide

/-! ### Words, bit by bit from R102 (`op[2:0] arg[7:0]`), R85 and R90 -/

theorem test_decode_nop : decodeTableWord 16 0b000_00000000 = some .nop := by decide
theorem test_decode_getNext : decodeTableWord 16 0b001_00000000 = some .getNext := by decide
theorem test_decode_consume : decodeTableWord 16 0b010_11111111 = some (.consume 0xFF) := by decide
theorem test_decode_pushReport : decodeTableWord 16 0b011_00000010 = some (.pushReport 2) := by decide
theorem test_decode_pushData : decodeTableWord 16 0b100_11010000 = some (.pushData 0xD0) := by decide
theorem test_decode_begin : decodeTableWord 16 0b101_00000001 = some .beginOp := by decide
theorem test_decode_end : decodeTableWord 16 0b110_00000000 = some .endOp := by decide
theorem test_decode_unknownCmd : decodeTableWord 16 0b111_00000000 = some .unknownCmd := by decide
theorem test_decode_twelfth_bit : decodeTableWord 16 0b1000_00000000 = none := by decide
theorem test_decode_rxSync : decodeTableWord 8 0xE0 = some .rxSync := by decide
theorem test_decode_rxMark : decodeTableWord 8 0xD0 = some .rxMark := by decide
theorem test_decode_rxData : decodeTableWord 8 0xDF = some (.rxData 0xDF) := by decide
theorem test_decode_txEmit : decode Config.default (.port .txReady) = .ok .txEmit := rfl
theorem test_decode_rst : decode Config.default (.port .rst) = .ok .rst := rfl
theorem test_decode_reset : decode Config.default (.head [0xF0, 0xD9, 0xF1]) = .ok (.reset (some 0xD9)) := rfl
theorem test_decode_reset_cut : decode Config.default (.head [0xF0]) = .ok (.reset none) := rfl
theorem test_decode_setaddr : decode Config.default (.head [0xF1, 0x1F]) = .ok (.setaddr (some 0x1F)) := rfl
theorem test_decode_retry : decode Config.default (.head [0x2F, 0x10]) = .ok .retry := rfl
theorem test_decode_opaque : decode Config.default (.head [0x10, 0xF0]) = .ok (.opaqueCmd 0x10) := rfl
theorem test_decode_no_head : decode Config.default (.head []) = .error .emptyWindow := rfl

/-! ### States -/

/-- `U` of 95_test_vectors.md: after `RST`, `BEGIN`. -/
def u : State := { State.reset with enabled := true }

/-- `A(1)` of 95_test_vectors.md: address 1, the response `E0 00 03 01 01 05` retained and emitted. -/
def a1 : State :=
  { u with
    devAddr := 1
    senseReady := true
    ledReady := true
    retBuf := Memory.writeList [] 0 [0xE0, 0x00, 0x03, 0x01, 0x01, 0x05]
    retLen := 6
    retValid := true
    txEmitPtr := 6 }

/-- The frame `[a, LEN] ++ data ++ [sum]` has been accepted. -/
def framed (s : State) (a : Byte) (data : List Byte) : State :=
  { s with
    rxBuf := Memory.writeList [] 0 (frameImage a data)
    rxSize := data.length + 3
    rxAvailable := true
    rxReadPtr := 2 }

/-- A frame is in progress with these bytes stored. -/
def midFrame (s : State) (stored : List Byte) : State :=
  { s with rxBuf := Memory.writeList [] 0 stored, rxSize := stored.length, rxReceiving := true }

/-- The command at the cursor has been handed out. -/
def handed (s : State) : State := { s with cmdOutstanding := true }

/-- The retained response is being emitted from index `k`. -/
def emittingFrom (k : Nat) (s : State) : State := { s with txEmitPtr := k, txEmitting := true }

/-- The event has a next state, and the test holds of it. -/
def after (r : Result) (p : State → Bool) : Bool :=
  match nextState? r with
  | some t => p t
  | none => false

/-- The bytes of the retained response. -/
def retained (s : State) : List Byte := s.bytes .ret 0 s.retLen

/-! ### Reset and memory -/

theorem test_reset_memory_wf : State.reset.rxBuf.wf && State.reset.txBuf.wf && State.reset.retBuf.wf = true := by decide
theorem test_write_keeps_order : Memory.write [(1, 5), (4, 6)] 2 7 = [(1, 5), (2, 7), (4, 6)] := by decide

/-! ### One step of each instruction -/

/-- 95 section 2.8. -/
theorem test_nop : after (exec .nop a1) (fun t => t == a1.answer .none) = true := by decide
/-- 95 section 2.4, row 1. -/
theorem test_getNext_setaddr : after (exec .getNext (framed u 0xFF [0xF1, 0x01])) (fun t =>
    t.devAddr == 1 && t.senseReady && t.ledReady && t.txEmitting && retained t == [0xE0, 0x00, 0x03, 0x01, 0x01, 0x05]) =
    true := by decide
/-- 95 section 2.4: `FF: F0 D9 F1 03`, here from `A(1)`: sense and LED are true before and after the event, so no driver
is called (R264). -/
theorem test_getNext_reset_then_setaddr : after (exec .getNext (framed a1 0xFF [0xF0, 0xD9, 0xF1, 0x03])) (fun t =>
    t.devAddr == 3 && t.txEmitting && retained t == [0xE0, 0x00, 0x03, 0x01, 0x01, 0x05] && setCalls t.trace == []) =
    true := by decide
/-- 95 section 2.3, row 2. -/
theorem test_consume : after (exec (.consume 2) (handed (framed a1 0x01 [0x10, 0x11, 0x12]))) (fun t =>
    t.rxReadPtr == 4 && !t.cmdOutstanding && !t.cycAbandon) = true := by decide
/-- 95 section 2.3, row 5. -/
theorem test_consume_beyond : after (exec (.consume 4) (handed (framed a1 0x01 [0x10, 0x11, 0x12]))) (fun t =>
    t.rxReadPtr == 2 && t.cycUnknown && t.cycAbandon && t.trace.contains (.raised (.badConsume 4 3))) = true := by decide
/-- R201's example, and R203: 2 is REPORT_PARAM_NORESP. -/
theorem test_pushReport : after (exec (.pushReport 2) (handed (framed a1 0x01 [0x10]))) (fun t =>
    t.byte .tx 3 == 2 && t.txReportSize == 2 && t.cycAbandon) = true := by decide
/-- 95 section 2.5: dropped outside a cycle. -/
theorem test_pushReport_outside : after (exec (.pushReport 1) a1) (fun t =>
    t.txReportSize == 1 && t.trace.contains (.raised (.callerProtocol .pushReport))) = true := by decide
/-- 95 section 2.5: a data byte 2 abandons nothing. -/
theorem test_pushData : after (exec (.pushData 2) (framed a1 0x01 [0x10])) (fun t =>
    t.byte .tx 3 == 2 && t.txReportSize == 2 && !t.cycAbandon) = true := by decide
/-- 95 section 2.5, last row: the queue is full. -/
theorem test_pushData_full : after (exec (.pushData 7) { framed a1 0x01 [0x10] with txReportSize := 253 }) (fun t =>
    t.txReportSize == 253 && t.txOvf && t.txBuf == []) = true := by decide
/-- 95 section 2.8. -/
theorem test_begin : after (exec .beginOp State.reset) (fun t => t.enabled && t.devAddr == 0 && t.rxInReady) = true := by decide
/-- U14 of 93_implementation_defined.md: END while disabled has no effect and is recorded. -/
theorem test_end_disabled : after (exec .endOp State.reset) (fun t =>
    t == (State.reset.raise (.callerProtocol .endOp)).answer .none) = true := by decide
/-- 95 section 2.8: END in mid-emission. -/
theorem test_end : after (exec .endOp (emittingFrom 2 a1)) (fun t => !t.txValid && !t.enabled && !t.retValid) = true := by decide
/-- 95 section 2.3: the opcode is recorded. -/
theorem test_unknownCmd : after (exec .unknownCmd (handed (framed a1 0x01 [0x10]))) (fun t =>
    t.cycUnknown && t.cycAbandon && !t.cmdOutstanding && t.trace.contains (.raised (.unknownOpcode 0x10))) = true := by decide
/-- 95 section 2.2: `RX E0 01 D0 E0`, STORE. -/
theorem test_rxSync_stored : after (exec .rxSync { midFrame u [0x01] with rxEscaping := true }) (fun t =>
    t.bytes .rx 0 2 == [0x01, 0xE1] && t.rxReceiving && !t.rxEscaping) = true := by decide
/-- 95 section 2.2: `RX E0 01 D0 E0`, RESTART. -/
theorem test_rxSync_restarts : after (exec .rxSync
    { midFrame u [0x01] with rxEscaping := true, cfg := { Config.default with syncInFrame := .restart } }) (fun t =>
    t.rxSize == 0 && t.rxReceiving && !t.rxEscaping) = true := by decide
/-- 95 section 2.2: `RX E0 01 D0`. -/
theorem test_rxMark : after (exec .rxMark (midFrame u [0x01])) (fun t => t.rxSize == 1 && t.rxEscaping) = true := by decide
/-- 95 section 2.2: the last byte of `RX E0 FF 03 F1 01 F4`. -/
theorem test_rxData_accepts : after (exec (.rxData 0xF4) (midFrame u [0xFF, 0x03, 0xF1, 0x01])) (fun t =>
    t.rxAvailable && t.rxReadPtr == 2 && t.rxSize == 5 && t.cmdPending && !t.rxInReady) = true := by decide
/-- 95 section 2.1: `RX E0 01 D0 FF` is LenZero. -/
theorem test_rxData_wraps : after (exec (.rxData 0xFF) { midFrame u [0x01] with rxEscaping := true }) (fun t =>
    t.byte .rx 1 == 0 && !t.rxReceiving && t.trace == [.raised (.lenZero 0x01)]) = true := by decide
/-- 95 section 2.7, row 1, with the retained response of `A(1)`. -/
theorem test_txEmit_last : after (exec .txEmit (emittingFrom 5 a1)) (fun t =>
    t.trace == [.emitted 0x05] && t.txEmitPtr == 6 && !t.txEmitting && !t.txDe) = true := by decide
/-- R170's example. -/
theorem test_reset : after (exec (.reset (some 0xD9)) (framed a1 0xFF [0xF0, 0xD9])) (fun t =>
    t.devAddr == 0 && !t.senseReady && !t.ledReady && t.cycResetSeen && t.rxReadPtr == 4 && t.retValid) = true := by decide
/-- 95 section 2.4: `FF: F0 00` does not reset. -/
theorem test_reset_malformed : after (exec (.reset (some 0x00)) (framed a1 0xFF [0xF0, 0x00])) (fun t =>
    t.devAddr == 1 && t.cycUnknown && t.cycAbandon && t.rxReadPtr == 2) = true := by decide
/-- 95 section 2.4: `FF: F1 1F` from `U`. -/
theorem test_setaddr : after (exec (.setaddr (some 0x1F)) (framed u 0xFF [0xF1, 0x1F])) (fun t =>
    t.devAddr == 31 && t.senseReady && t.byte .tx 3 == 0x01 && t.rxReadPtr == 4) = true := by decide
/-- 95 section 2.4: `FF: F1 20` from `U`. -/
theorem test_setaddr_out_of_range : after (exec (.setaddr (some 0x20)) (framed u 0xFF [0xF1, 0x20])) (fun t =>
    t.devAddr == 0 && !t.senseReady && t.byte .tx 3 == 0x03 && t.rxReadPtr == 4) = true := by decide
/-- 95 section 2.4: `01: 2F` from `A(1)`. -/
theorem test_retry : after (exec .retry (framed a1 0x01 [0x2F])) (fun t =>
    t.txEmitting && t.txEmitPtr == 0 && retained t == [0xE0, 0x00, 0x03, 0x01, 0x01, 0x05] && !t.rxAvailable) = true := by decide
/-- 95 section 2.4: `FF: 2F` from `U`. -/
theorem test_retry_empty : after (exec .retry (framed u 0xFF [0x2F])) (fun t =>
    t.txEmitting && t.retValid && retained t == [0xE0, 0x00, 0x02, 0x02, 0x04]) = true := by decide
/-- R176's example. -/
theorem test_opaque : after (exec (.opaqueCmd 0x10) (framed a1 0x01 [0x10, 0x11, 0x12])) (fun t =>
    t.cmdOutstanding && t.trace == [.answered (.cmd 3)]) = true := by decide
/-- 95 section 2.8. -/
theorem test_rst : after (exec .rst (emittingFrom 2 a1)) (fun t =>
    !t.enabled && t.devAddr == 0 && !t.sense && !t.led && !t.txValid && t.rxInReady && !t.cmdPending) = true := by decide

/-- S1 of 95_test_vectors.md. -/
theorem test_wire_image : frameWire Config.default 0xFF [0x10, 0xE0, 0xD0] =
    [0xE0, 0xFF, 0x04, 0x10, 0xD0, 0xDF, 0xD0, 0xCF, 0xC3] := by decide
/-- A word of the table runs as the first event after reset. -/
theorem test_step_begin : after (step (State.reset.withFetchWord 16 0x500)) (fun t => t.enabled && t.offers == []) = true := by decide
/-- A command head runs as the first event after reset. -/
theorem test_step_retry : after (step (State.reset.withFetchWord 8 0x2F)) (fun t => t.txEmitting) = true := by decide

/-! ### Witnesses: states and operands that meet the hypotheses of an obligation, clause by clause

Values at the ends of a range where the hypotheses have one. -/

/-- `U` and `A(1)` with a frame accepted, one command handed out, or an emission running are good states. -/
theorem test_inv_u : u.Inv := by constructor <;> decide
theorem test_inv_a1 : a1.Inv := by constructor <;> decide
theorem test_inv_framed : (framed a1 0x01 [0x10, 0x11, 0x12]).Inv := by constructor <;> decide
theorem test_inv_handed : (handed (framed a1 0x01 [0x10, 0x11, 0x12])).Inv := by constructor <;> decide
theorem test_inv_emitting : (emittingFrom 5 a1).Inv := by constructor <;> decide
theorem test_inv_midFrame : (midFrame u [0xFF, 0x03, 0xF1, 0x01]).Inv := by constructor <;> decide

/-- The configuration in which a SYNC restarts. -/
def restartU : State := { u with cfg := { Config.default with syncInFrame := .restart } }

/-- One byte short of the longest frame, `LEN = 254`. -/
def lastByte : State := { midFrame u [0x01, 0xFE] with rxSize := 255 }

/-- A response cycle at the end of DATA whose queue is full. -/
def fullCycle : State := { framed a1 0x01 [0x10] with rxReadPtr := 3, txReportSize := 253 }

/-- A response cycle at the end of DATA in which a RESET ran. -/
def resetCycle : State := { framed u 0xFF [0xF0, 0xD9] with rxReadPtr := 4, cycResetSeen := true }

/-- The commands of S5 with their answers. -/
def served : List Served := [⟨0x10, [], 0x01, [0xAA]⟩, ⟨0x11, [0x12], 0x03, []⟩]

theorem test_witness_DecodeAndEncodeAgree : Config.default.wf ∧ (Instr.rxData 0xDF).wf Config.default ∧
    (Instr.opaqueCmd 0xF2).wf Config.default ∧ (Instr.reset none).wf Config.default ∧
    decode Config.default (.head [0xF1, 0x20, 0x10]) = .ok (.setaddr (some 0x20)) := by decide
theorem test_witness_BytesAndHeads : Config.default.wf ∧ (0xDF : Byte) ≠ Config.default.sync ∧
    (0xDF : Byte) ≠ Config.default.esc ∧ (0xEF : Byte) ≠ Config.default.cmdReset ∧
    (0xEF : Byte) ≠ Config.default.cmdSetaddr ∧ (0xEF : Byte) ≠ Config.default.cmdRetry := by decide
/-- The shortest and the longest image, the longest with every byte a marker. -/
theorem test_witness_ChecksumAndWireImage : ∀ n ∈ [4, 256], Config.default.wf ∧
    4 ≤ (List.replicate n (0xE0 : Byte)).length ∧ (List.replicate n (0xE0 : Byte)).length ≤ Config.default.txCap := by
  decide +kernel
/-- No DATA byte and the most that fit; also of OneCorruptedByteIsDiscardedSilently. -/
theorem test_witness_ReceiverStoresTheEncodedImage : ∀ n ∈ [0, 253], u.cfg.wf ∧ u.enabled = true ∧
    u.rxAvailable = false ∧ u.rxReceiving = false ∧ (List.replicate n (0xE0 : Byte)).length + 3 ≤ u.cfg.rxCap := by
  decide +kernel
/-- ADDR, DATA and CHECKSUM changed; `FF` sums to `FF + 02 + 10 = 11`. -/
theorem test_witness_OneCorruptedByte : ∀ k ∈ [(0 : Nat), 2, 3], k < [(0x10 : Byte)].length + 3 ∧ k ≠ 1 ∧
    (frameImage 0xFF [0x10])[k]? ≠ some 0x12 := by decide
theorem test_witness_ResponsePasses : a1.Inv ∧ ∀ n ∈ [0, 252], a1.enabled = true ∧ a1.rxAvailable = false ∧
    a1.rxReceiving = false ∧ (List.replicate n (0x01 : Byte)).length + 4 ≤ a1.cfg.rxCap := ⟨test_inv_a1, by decide +kernel⟩
theorem test_witness_SyncStarts_outside : u.enabled = true ∧ u.rxAvailable = false ∧ u.rxReceiving = false := by decide
theorem test_witness_SyncStarts_restart : (midFrame restartU [1]).enabled = true ∧
    (midFrame restartU [1]).rxAvailable = false ∧ (midFrame restartU [1]).rxReceiving = true ∧
    (midFrame restartU [1]).cfg.syncInFrame = .restart := by decide
/-- Also of DataByteIsStored and of MarkSetsTheEscapeFlag: the last index of the buffer, the CHECKSUM's. -/
theorem test_witness_SyncStarts_stored : lastByte.enabled = true ∧ lastByte.rxAvailable = false ∧
    lastByte.rxReceiving = true ∧ lastByte.cfg.syncInFrame = .store ∧ lastByte.rxSize < lastByte.cfg.rxCap := by decide
/-- An unescaped SYNC is stored in STORE mode; also of LenByteIsChecked and of CompleteFrameIsCheckedAndFiltered. -/
theorem test_witness_StoresByte : lastByte.StoresByte .rxSync 0xE0 ∧ lastByte.StoresByte (.rxData 0xDF) 0xDF :=
  ⟨.inr ⟨rfl, rfl, rfl⟩, .inl rfl⟩
/-- The index of ADDR and that of the last DATA byte, neither LEN nor CHECKSUM. -/
theorem test_witness_DataByteIsStored : ∀ s ∈ [midFrame u [], { midFrame u [0x01, 0xFE] with rxSize := 254 }],
    s.enabled = true ∧ s.rxAvailable = false ∧ s.rxReceiving = true ∧ s.rxSize < s.cfg.rxCap ∧ s.rxSize ≠ 1 ∧
      s.rxSize + 1 ≠ s.rxLen + 2 := by decide
theorem test_witness_OtherBytesAreIgnored : u.rxReceiving = false ∧ (0xD0 : Byte) ≠ u.cfg.sync ∧
    exec (decodeRx u.cfg 0xD0) u = .next u := ⟨rfl, by decide, rfl⟩
theorem test_witness_BytesAreHeld_available : (framed u 0xFF []).enabled = true ∧
    (framed u 0xFF []).rxAvailable = true := by decide
theorem test_witness_BytesAreHeld_disabled : State.reset.enabled = false := rfl
theorem test_witness_BytesAreHeld_lifted : ∃ t, (framed a1 0x01 [0x2F]).rxInReady = false ∧
    exec .retry (framed a1 0x01 [0x2F]) = .next t ∧ t.rxInReady = true := ⟨_, rfl, rfl, rfl⟩
/-- The clauses of LEN: zero, the longest that fits, one more. -/
theorem test_witness_LenByteIsChecked : ∀ b ∈ [(0x00 : Byte), 0xFE, 0xFF], (midFrame u [0x01]).cfg.wf ∧
    (midFrame u [0x01]).enabled = true ∧ (midFrame u [0x01]).rxAvailable = false ∧
    (midFrame u [0x01]).rxReceiving = true ∧ (midFrame u [0x01]).rxSize = 1 ∧
    (256 < b.toNat + 2 ↔ b = 0xFF) := by decide
/-- The shortest frame, `LEN = 1`. -/
theorem test_witness_CompleteFrame_short : let s := midFrame u [0xFF, 0x01]
    s.enabled = true ∧ s.rxAvailable = false ∧ s.rxReceiving = true ∧ 2 ≤ s.rxSize ∧ s.rxSize < s.cfg.rxCap ∧
      s.rxSize + 1 = s.rxLen + 2 := by decide
/-- The longest, `LEN = 254`. -/
theorem test_witness_CompleteFrame_long : lastByte.enabled = true ∧ lastByte.rxAvailable = false ∧
    lastByte.rxReceiving = true ∧ 2 ≤ lastByte.rxSize ∧ lastByte.rxSize < lastByte.cfg.rxCap ∧
    lastByte.rxSize + 1 = lastByte.rxLen + 2 := by decide

theorem test_witness_GetNextAnswers : State.reset.enabled = false ∧ u.enabled = true ∧ u.rxAvailable = false ∧
    (handed (framed a1 1 [0x10])).enabled = true ∧ (handed (framed a1 1 [0x10])).rxAvailable = true ∧
    (handed (framed a1 1 [0x10])).cmdOutstanding = true := by decide
theorem test_witness_GetNextIsHeld : ∃ t,
    (framed (emittingFrom 5 a1) 1 [0x10]).opReady (callerWord .getNext 0xFF) = false ∧
    exec (decodeOffer Config.default .txReady) (framed (emittingFrom 5 a1) 1 [0x10]) = .next t ∧
    t.opReady (callerWord .getNext 0xFF) = true := ⟨_, by decide, rfl, by decide⟩
/-- Each of the four heads, the last DATA byte an opcode among them. -/
theorem test_witness_GetNextRuns : ∀ p ∈ ([([0xF0, 0xD9], .reset (some 0xD9)), ([0xF1, 0x1F, 0x10], .setaddr (some 0x1F)),
      ([0x2F], .retry), ([0x10], .opaqueCmd 0x10), ([0xF0], .reset none)] : List (List Byte × Instr)),
    let s := framed a1 0xFF p.1
    s.enabled = true ∧ s.rxAvailable = true ∧ s.cmdOutstanding = false ∧ s.txEmitting = false ∧ s.cycAbandon = false ∧
      s.rxReadPtr < s.rxSize - 1 ∧ s.rxSize ≤ s.cfg.rxCap ∧ decodeHead s.cfg s.window = .ok p.2 := by decide
theorem test_witness_ResetOnlyCycle : resetCycle.enabled = true ∧ resetCycle.rxAvailable = true ∧
    resetCycle.cmdOutstanding = false ∧ resetCycle.txEmitting = false ∧
    resetCycle.rxSize - 1 ≤ resetCycle.rxReadPtr ∧ resetCycle.cycResetSeen = true ∧ resetCycle.txReportSize = 1 ∧
    resetCycle.cycUnknown = false ∧ resetCycle.txOvf = false := by decide
theorem test_witness_EndOfCycle_full : fullCycle.cfg.wf ∧ fullCycle.enabled = true ∧ fullCycle.rxAvailable = true ∧
    fullCycle.cmdOutstanding = false ∧ fullCycle.txEmitting = false ∧ fullCycle.rxSize - 1 ≤ fullCycle.rxReadPtr ∧
    fullCycle.cycResetSeen = false ∧ 1 ≤ fullCycle.txReportSize ∧ fullCycle.txReportSize ≤ fullCycle.cfg.qMax := by
  decide
/-- Abandoned at the first command, with nothing queued. -/
theorem test_witness_EndOfCycle_abandoned :
    let s := { framed a1 1 [0x10] with cycAbandon := true, cycUnknown := true }
    s.cfg.wf ∧ s.enabled = true ∧ s.rxAvailable = true ∧ s.cmdOutstanding = false ∧ s.txEmitting = false ∧
      s.cycAbandon = true ∧ s.cycResetSeen = false ∧ 1 ≤ s.txReportSize ∧ s.txReportSize ≤ s.cfg.qMax := by decide
theorem test_witness_Status : u.cfg.wf ∧ { u with cycUnknown := true, txOvf := true }.cycUnknown = true ∧
    { u with rxOvfPending := true }.cycUnknown = false ∧ { u with rxOvfPending := true }.rxOvfPending = true ∧
    u.cycUnknown = false ∧ u.txOvf = false ∧ u.rxOvfPending = false := by decide
theorem test_witness_Malformed : some (0xD8 : Byte) ≠ some u.cfg.resetArg ∧ none ≠ some u.cfg.resetArg := by decide
/-- Both ends of the range, with room in the queue and with none. -/
theorem test_witness_SetaddrIsAccepted : ∀ a ∈ [(1 : Byte), 31], u.devAddr = 0 ∧ u.cfg.addrMin ≤ a ∧ a ≤ u.cfg.addrMax ∧
    { u with txReportSize := 252 }.txReportSize < u.cfg.qMax ∧ ¬ { u with txReportSize := 253 }.txReportSize < u.cfg.qMax := by
  decide
theorem test_witness_SetaddrIsIgnored : a1.devAddr ≠ 0 ∧ (0 : Byte) < u.cfg.addrMin ∧ u.cfg.addrMax < (32 : Byte) := by decide
theorem test_witness_Retry : a1.retValid = true ∧ u.retValid = false := by decide
/-- The last byte of the window and the first beyond it. -/
theorem test_witness_CmdByte : let s := handed (framed a1 1 [0x10, 0x11, 0x12])
    s.Inv ∧ s.rxAvailable = true ∧ s.cmdOutstanding = true ∧ 2 < s.rxSize - 1 - s.rxReadPtr ∧
      ¬ 3 < s.rxSize - 1 - s.rxReadPtr := ⟨test_inv_handed, by decide⟩
theorem test_witness_CoreOpcodes : ∃ t, (framed a1 1 [0xF1, 0x02, 0x10]).cmdOutstanding = false ∧
    exec .getNext (framed a1 1 [0xF1, 0x02, 0x10]) = .next t ∧ t.cmdOutstanding = true := ⟨_, rfl, rfl, rfl⟩
/-- 0, 1, the whole window and one more. -/
theorem test_witness_Consume : ∀ n ∈ [(0 : Byte), 1, 3, 4], (handed (framed a1 1 [0x10, 0x11, 0x12])).enabled = true ∧
    (handed (framed a1 1 [0x10, 0x11, 0x12])).rxAvailable = true ∧
    (handed (framed a1 1 [0x10, 0x11, 0x12])).cmdOutstanding = true ∧
    ((1 ≤ n.toNat ∧ n.toNat ≤ 3) ↔ (n = 1 ∨ n = 3)) := by decide
theorem test_witness_UnknownCmd : (handed (framed a1 1 [0x10])).enabled = true ∧
    (handed (framed a1 1 [0x10])).rxAvailable = true ∧ (handed (framed a1 1 [0x10])).cmdOutstanding = true ∧
    (handed (framed a1 1 [0x10])).rxReadPtr < (handed (framed a1 1 [0x10])).cfg.rxCap := by decide
theorem test_witness_Meaningless : State.reset.enabled = false ∧ ¬ (State.reset.enabled = true ∧ State.reset.rxAvailable = true) ∧
    ¬ ((framed a1 1 [0x10]).enabled = true ∧ (framed a1 1 [0x10]).rxAvailable = true ∧
      (framed a1 1 [0x10]).cmdOutstanding = true) := by decide
/-- `served` is the DATA of the frame, and nothing of it is missing. -/
theorem test_witness_MultiplexedFrame : let s := framed a1 1 [0x10, 0x11, 0x12]
    s.Inv ∧ s.enabled = true ∧ s.rxAvailable = true ∧ s.cmdOutstanding = false ∧ s.txEmitting = false ∧ s.cycAbandon = false ∧
      served ≠ [] ∧ s.window = served.flatMap Served.command ∧
      (∀ v ∈ served, headClassOf s.cfg v.opcode = .opaqueCmd ∧ v.code ≠ s.cfg.reportParamNoresp) ∧
      s.txReportSize + (served.flatMap Served.report).length ≤ s.cfg.qMax := ⟨test_inv_framed, by decide⟩
theorem test_witness_MultiplexedFrame_empty : (framed a1 1 []).cycResetSeen = false ∧
    (framed a1 1 []).window = ([] : List Served).flatMap Served.command := by decide
/-- Room for one byte, and none; also of PushDataQueuesTheByte and of QueueKeepsTheFirstBytesPushed. -/
theorem test_witness_Push : ∀ q ∈ [252, 253], (framed a1 1 [0x10]).enabled = true ∧
    (framed a1 1 [0x10]).rxAvailable = true ∧ 1 ≤ { framed a1 1 [0x10] with txReportSize := q }.txReportSize ∧
    { framed a1 1 [0x10] with txReportSize := q }.txReportSize ≤ Config.default.qMax := by decide

theorem test_witness_TxEmit : (emittingFrom 5 a1).txEmitting = true ∧
    (emittingFrom 5 a1).txEmitPtr < (emittingFrom 5 a1).cfg.retCap ∧ u.txEmitting = false := by decide
theorem test_witness_Drain : (emittingFrom 5 a1).Inv ∧ (emittingFrom 5 a1).txEmitting = true := ⟨test_inv_emitting, rfl⟩
/-- A retry, one byte emitted, and a retry, with nothing flushed between them. -/
theorem test_witness_RetryIsIdempotent : ∃ t w v, exec .retry (framed a1 1 [0x2F]) = .next t ∧
    runEvents [.txEmit, .nop] t = .next w ∧ (∀ i ∈ [Instr.txEmit, .nop], i ≠ .beginOp ∧ i ≠ .endOp ∧ i ≠ .rst) ∧
    w.trace = [.answered .none, .emitted 0xE0] ++ t.trace ∧
    (∀ st q, Note.raised (.responseFlushed st q) ∉ [Note.answered .none, .emitted 0xE0]) ∧
    exec .retry w = .next v :=
  ⟨_, _, _, rfl, rfl, by decide, rfl, by simp, rfl⟩
theorem test_witness_RetryLatch : ∃ t, exec .txEmit (emittingFrom 5 a1) = .next t ∧ Instr.txEmit ≠ .beginOp ∧
    Instr.txEmit ≠ .endOp ∧ Instr.txEmit ≠ .rst := ⟨_, rfl, by decide⟩
theorem test_witness_EmissionStarts : ∃ t, exec (decodeOffer Config.default (.callerOp 0x100)) (framed a1 1 [0x2F]) = .next t ∧
    (framed a1 1 [0x2F]).txEmitting = false ∧ t.txEmitting = true := ⟨_, rfl, rfl, rfl⟩
theorem test_witness_ResponseInFlight : ∃ t, exec (decodeOffer Config.default .txReady) (emittingFrom 2 a1) = .next t ∧
    (emittingFrom 2 a1).txEmitting = true ∧ decodeOffer Config.default .txReady ≠ .beginOp ∧
    decodeOffer Config.default .txReady ≠ .endOp ∧ decodeOffer Config.default .txReady ≠ .rst := ⟨_, rfl, by decide⟩

/-- END in an enabled state and in a good disabled one. -/
theorem test_witness_RstAndEnd : (Instr.endOp = .rst ∨ Instr.endOp = .endOp) ∧ a1.enabled = true ∧
    State.reset.enabled = false ∧ State.reset.Inv := ⟨by decide, rfl, rfl, by constructor <;> decide⟩
/-- A received byte, and END. -/
theorem test_witness_DisabledCore : State.reset.Inv ∧ State.reset.enabled = false ∧
    ∀ o ∈ [Offer.rxByte 0xE0, .callerOp 0x600], decodeOffer Config.default o ≠ .beginOp ∧
      decodeOffer Config.default o ≠ .rst := ⟨by constructor <;> decide, by decide⟩
/-- A GET_NEXT that runs a RESET and then a SETADDR changes the address: the head with `k = 1` lies in DATA. -/
theorem test_witness_AddressAndReady_getNext : let s := framed a1 0xFF [0xF0, 0xD9, 0xF1, 0x03]
    ∃ t, exec .getNext s = .next t ∧ t.devAddr ≠ s.devAddr ∧ s.rxReadPtr + 2 * 1 + 1 < s.rxSize - 1 :=
  ⟨_, rfl, by decide⟩
theorem test_witness_AddressAndReady : ∃ t, exec (.setaddr (some 31)) (framed u 0xFF [0xF1, 0x1F]) = .next t ∧
    t.devAddr ≠ (framed u 0xFF [0xF1, 0x1F]).devAddr := ⟨_, rfl, by decide⟩
theorem test_witness_AvailableFrame : ∃ t, (framed a1 1 [0x10]).enabled = true ∧ (framed a1 1 [0x10]).rxAvailable = true ∧
    exec .getNext (framed a1 1 [0x10]) = .next t := ⟨_, rfl, rfl, rfl⟩
theorem test_witness_NonStoring : ∃ t, exec .rxMark (midFrame u [1]) = .next t := ⟨_, rfl⟩
theorem test_witness_EventsKeep : ∃ t, exec .beginOp State.reset = .next t := ⟨_, rfl⟩

/-- A frame waits for the end of an emission. -/
def busy (offers : List Offer) : State := { framed (emittingFrom 5 a1) 1 [0x10] with offers := offers }

/-- The offers of `busy` before a transmit transfer in the fourth place: a byte and GET_NEXT are held, and NOP waits behind
GET_NEXT. -/
theorem test_witness_AllWait (offers : List Offer) :
    (busy offers).AllWait [.rxByte 0xE0, .callerOp 0x100, .callerOp 0] := by
  intro l o r h
  match l, h with
  | [], h => cases h; exact .inl rfl
  | [_], h => cases h; exact .inl rfl
  | [_, _], h => cases h; exact .inr ⟨.callerOp 0x100, by simp, rfl⟩
  | [_, _, _], h => cases h
  | _ :: _ :: _ :: _ :: _, h => cases h
/-- The transmit transfer in the fourth place is free. -/
theorem test_witness_StepRuns : let s := busy [.rxByte 0xE0, .callerOp 0x100, .callerOp 0, .txReady]
    s.cfg.wf ∧ s.offers = [.rxByte 0xE0, .callerOp 0x100, .callerOp 0] ++ .txReady :: [] ∧
      s.AllWait [.rxByte 0xE0, .callerOp 0x100, .callerOp 0] ∧
      (∀ p ∈ [Offer.rxByte 0xE0, .callerOp 0x100, .callerOp 0], offerAgent p ≠ offerAgent .txReady) ∧
      decode s.cfg (.port .txReady) = .ok .txEmit ∧ held .txEmit s = false :=
  ⟨by decide, rfl, test_witness_AllWait _, by decide, rfl, rfl⟩
/-- A byte waits behind an available frame while the caller moves. -/
theorem test_witness_HeldOffers : let s := { framed a1 1 [0x10] with offers := [.rxByte 0xE0, .callerOp 0x100] }
    s.cfg.wf ∧ held (decodeOffer s.cfg (.rxByte 0xE0)) s ∧ offerAgent (.callerOp 0x100) ≠ offerAgent (.rxByte 0xE0) ∧
      held (decodeOffer s.cfg (.callerOp 0x100)) s = false := by decide
/-- NOP, never held, waits behind the caller's GET_NEXT; and every offer of the third clause waits. -/
theorem test_witness_HeldOffers_sameAgent : let s := busy [.callerOp 0x100, .callerOp 0]
    s.cfg.wf ∧ held (decodeOffer s.cfg (.callerOp 0x100)) s ∧
      (∀ p ∈ [Offer.callerOp 0], offerAgent p = offerAgent (.callerOp 0x100)) ∧
      held (decodeOffer s.cfg (.callerOp 0)) s = false ∧
      (busy [.rxByte 0xE0, .callerOp 0x100, .callerOp 0]).AllWait [.rxByte 0xE0, .callerOp 0x100, .callerOp 0] :=
  ⟨by decide, by decide, by decide, by decide, test_witness_AllWait _⟩
/-- A caller operation, a received byte and a transmit transfer, each the first of its clock. -/
theorem test_witness_OneClock : u.cfg.wf ∧ held (decodeCaller 0x500)
    { u with offers := serialise ⟨false, some 0x500, some 0xE0, true⟩ } = false ∧
    held (decodeRx u.cfg 0xE0) { u with offers := serialise ⟨false, none, some 0xE0, true⟩ } = false ∧
    (busy (serialise ⟨false, none, none, true⟩)).txEmitting = true := by decide
theorem test_witness_IllFormed : { u with cfg := { Config.default with esc := 0xE0 } }.cfg.wf = false := by decide
theorem test_witness_EveryStep : ∃ t, step { a1 with offers := [.callerOp 0] } = .next t ∧
    { a1 with offers := [.callerOp 0] }.Inv := ⟨_, rfl, by constructor <;> decide⟩
theorem test_witness_ReachableStates : a1.Inv ∧ Reachable (State.powerOn Config.default []) :=
  ⟨test_inv_a1, .powerOn _ _ (by decide)⟩
theorem test_witness_Reachable : ∃ t, Reachable (State.powerOn Config.default [.callerOp 0x500]) ∧
    step (State.powerOn Config.default [.callerOp 0x500]) = .next t ∧ t.enabled = true :=
  ⟨_, .powerOn _ _ (by decide), rfl, rfl⟩
/-- The last byte of `RX E0 FF 03 F1 01 F4`. -/
theorem test_witness_OnlyCheckedFrames : ∃ t, exec (.rxData 0xF4) (midFrame u [0xFF, 0x03, 0xF1, 0x01]) = .next t ∧
    (midFrame u [0xFF, 0x03, 0xF1, 0x01]).rxAvailable = false ∧ t.rxAvailable = true := ⟨_, rfl, rfl, rfl⟩
/-- `cmd_pending` rises with a frame and falls with the cycle that serves it, in which both drivers are called. -/
theorem test_witness_Outputs : u.Inv ∧ ∃ t v, exec (.rxData 0xF4) (midFrame u [0xFF, 0x03, 0xF1, 0x01]) = .next t ∧
    (midFrame u [0xFF, 0x03, 0xF1, 0x01]).cmdPending = false ∧ t.cmdPending = true ∧
    exec .getNext t = .next v ∧ v.cmdPending = false ∧
    setCalls v.trace = setCalls t.trace ++ [.senseSet true, .ledSet true] :=
  ⟨test_inv_u, _, _, rfl, rfl, rfl, rfl, rfl, rfl⟩

end Sys2Proof.Tests
end

/-! SUPPORT. The scope family (00_scope.md R3, R8, R13): the decoder gives well-formed events only, and what one step does for
each outcome of the configuration check and of the choice among the offers. -/

namespace Sys2Proof

/-! ### What an offer decodes to is well-formed (R85, R100 to R104) -/

/-- A byte is classed as data only if it is neither marker (R85). -/
theorem rxClassOf_eq_data_iff (c : Config) (b : Byte) : rxClassOf c b = .data ↔ b ≠ c.sync ∧ b ≠ c.esc := by
  unfold rxClassOf
  split_ifs with hs he
  · simp [hs]
  · simp [he]
  · simp [hs, he]

/-- Every caller operation is well-formed, whatever its operand (R102). -/
theorem decodeCaller_wf (c : Config) (w : CallerWord) : (decodeCaller w).wf c = true := by
  unfold decodeCaller
  cases callerOpOf w <;> rfl

/-- The byte of a decoded RX_DATA is no marker. -/
theorem decodeRx_wf (c : Config) (b : Byte) : (decodeRx c b).wf c = true := by
  unfold decodeRx
  cases hb : rxClassOf c b with
  | sync => rfl
  | mark => rfl
  | data => simpa [Instr.wf] using (rxClassOf_eq_data_iff c b).1 hb

theorem decodeOffer_wf (c : Config) (o : Offer) : (decodeOffer c o).wf c = true := by
  cases o with
  | callerOp w => exact decodeCaller_wf c w
  | rxByte b => exact decodeRx_wf c b
  | txReady => rfl
  | rst => rfl

/-- A port transfer is always an event: the one of its offer. -/
theorem decode_port_eq_ok_iff (c : Config) (o : Offer) (i : Instr) :
    decode c (.port o) = .ok i ↔ decodeOffer c o = i := by
  simp [decode]

end Sys2Proof

namespace Sys2Proof.Machine

/-! ### One step, outcome by outcome (R3, R8, R10) -/

/-- R8: a configuration that breaks one of the seven clauses stops the step by name. -/
theorem step_of_not_wf {s : State} (h : s.cfg.wf = false) : step s = .refused .illFormedConfig := by
  simp [step, h]

theorem step_of_fetch_some {s t : State} {i : Instr} (h : s.cfg.wf = true) (hf : fetch s = some (i, t)) :
    step s = exec i t := by
  simp [step, h, hf]

/-- The offer fetched is the first that does not wait; the waiting ones before it and all behind it stay. -/
theorem fetch_free {s : State} {waiting rest : List Offer} {o : Offer} (ho : s.offers = waiting ++ o :: rest)
    (hw : s.AllWait waiting) (ha : ∀ p ∈ waiting, offerAgent p ≠ offerAgent o)
    (hh : held (decodeOffer s.cfg o) s = false) :
    fetch s = some (decodeOffer s.cfg o, { s with offers := waiting ++ rest }) := by
  have hpick : pickOffer s [] s.offers = some (o, waiting ++ rest) := by
    rw [ho]
    exact pickOffer_free s o rest waiting hh [] ((s.allWaitBehind_nil waiting).2 hw) List.not_mem_nil ha
  rw [fetch, hpick, Option.map_some]

/-! ### The statements -/

/-- Settles O52: the decoder's event is well-formed, and `fetch` passes over the offers that wait. -/
theorem stepRunsTheDecodedEvent : Obligations.StepRunsTheDecodedEvent := by
  intro s waiting o rest i hwf ho hw ha hdec hh
  obtain rfl := (decode_port_eq_ok_iff s.cfg o i).1 hdec
  exact ⟨decodeOffer_wf s.cfg o, step_of_fetch_some hwf (fetch_free ho hw ha hh)⟩

/-- Settles O55: the check of R8 stands before the choice of an event. -/
theorem illFormedConfigurationIsRefused : Obligations.IllFormedConfigurationIsRefused :=
  fun _ h => step_of_not_wf h

end Sys2Proof.Machine

/-! SUPPORT. The invariants of 10_state.md R48 (O56, O57, O58, O29): one lemma for each update an event is made of, then the
events, then the step. -/

namespace Sys2Proof.Machine

/-- A frame whose checksum holds keeps it while RX does. -/
theorem checksum_of_mem {s t : State} {n : Nat} (hm : t.mem .rx = s.mem .rx) (hd : t.draws = s.draws)
    (hsum : sum8 (s.bytes .rx 0 n) = s.byte .rx n) : sum8 (t.bytes .rx 0 n) = t.byte .rx n := by
  rw [State.bytes_of_mem hm hd, State.byte_congr n hm hd, hsum]

/-- Clause (4) is about the received frame, the cursor and `rx_available` only. -/
theorem State.Inv.availableOk_of_same {s t : State} (h : s.Inv) (ht : t = { t with
      rxBuf := s.rxBuf, rxSize := s.rxSize, rxAvailable := s.rxAvailable, rxReadPtr := s.rxReadPtr, draws := s.draws }) :
    t.AvailableOk := by
  rw [ht]
  intro ha
  obtain ⟨hsize, h3, h2, hp, hsum⟩ := h.available ha
  exact ⟨hsize, h3, h2, hp, checksum_of_mem (s := s) rfl rfl hsum⟩

/-! ### The invariants at reset (R49) -/

/-- Every register at its reset value: a good state for any well-formed configuration, whatever was drawn, offered and
traced. -/
theorem State.inv_reset {c : Config} (hc : c.wf = true) (draws : Nat) (offers : List Offer) (trace : List Note) :
    { State.reset with cfg := c, draws := draws, offers := offers, trace := trace }.Inv where
  config := hc
  cursor := ⟨Nat.le_refl 0, Nat.zero_le _⟩
  escape := fun _ => rfl
  receiving := nofun
  available := nofun
  outstanding := nofun
  address := .inl rfl
  ready := ⟨rfl, rfl⟩
  report := by
    obtain ⟨-, htx, hq, -⟩ := Config.wf_capacities hc
    exact ⟨Nat.le_refl 1, show 1 ≤ c.qMax by omega⟩
  latch := ⟨nofun, nofun⟩
  disabled := fun _ =>
    ⟨⟨rfl, rfl, rfl, rfl, rfl, rfl⟩, ⟨rfl, rfl, rfl⟩, ⟨rfl, rfl, rfl, rfl⟩, rfl, rfl, rfl, rfl, rfl, rfl⟩
  ranges := ⟨Nat.le_refl 0, Nat.zero_le _⟩
  buffers := ⟨⟨rfl, rfl, rfl⟩, rfl, rfl, rfl⟩

theorem State.Inv.resetCore {s : State} (h : s.Inv) : s.resetCore.Inv :=
  State.inv_reset h.config _ _ _

/-- BEGIN enables the core it has re-initialised; only clause (10) speaks of `enabled`. -/
theorem State.Inv.enable {s : State} (h : s.Inv) : { s with enabled := true }.Inv :=
  { h with available := h.availableOk_of_same rfl, disabled := nofun }

/-- Settles O56: every clause is about registers at their reset values and empty buffers. -/
theorem powerOnSatisfiesTheInvariants : Obligations.PowerOnSatisfiesTheInvariants :=
  ⟨State.inv_reset (c := Config.default) (by decide) 0 [] [], fun _ offers hc => State.inv_reset hc 0 offers []⟩

/-! ### Updates the invariants do not see, or see in one clause -/

/-- No clause speaks of the offers or of the trace. -/
theorem State.Inv.outside {s : State} (h : s.Inv) (offers : List Offer) (trace : List Note) :
    { s with offers := offers, trace := trace }.Inv :=
  { h with available := h.availableOk_of_same rfl }

/-- An enabled core meets clause (10) whatever its registers hold. -/
theorem disabledOk_of_enabled {s t : State} (he : s.enabled = true) (ht : t.enabled = s.enabled) : t.DisabledOk :=
  fun hd => absurd (ht.symm.trans hd) (by simp [he])

section Enabled

variable {s : State} (h : s.Inv) (he : s.enabled = true)
include h he

theorem State.Inv.flags (abandon unknown resetSeen ovf rxOvf : Bool) :
    { s with cycAbandon := abandon, cycUnknown := unknown, cycResetSeen := resetSeen, txOvf := ovf,
             rxOvfPending := rxOvf }.Inv :=
  { h with available := h.availableOk_of_same rfl, disabled := disabledOk_of_enabled he rfl }

/-- The command handed out is taken back (R162 to R164). -/
theorem State.Inv.withdraw : { s with cmdOutstanding := false }.Inv :=
  { h with available := h.availableOk_of_same rfl, outstanding := nofun, disabled := disabledOk_of_enabled he rfl }

/-- A command is handed out only of an available frame, before the end of DATA (R176). -/
theorem State.Inv.handOut (ha : s.rxAvailable = true) (hp : s.rxReadPtr < s.dataEnd) :
    { s with cmdOutstanding := true }.Inv :=
  { h with
    available := h.availableOk_of_same rfl
    outstanding := fun _ => ⟨ha, hp⟩
    disabled := disabledOk_of_enabled he rfl }

/-- The cursor moves within DATA, with no command handed out (R162, R170, R172, R174). -/
theorem State.Inv.advance (hw : s.cmdOutstanding = false) {n : Nat} (hn : n ≤ s.windowLen) : (s.advance n).Inv := by
  have hn' : n ≤ s.rxSize - 1 - s.rxReadPtr := hn
  have hc := h.cursor
  refine { h with
    cursor := ⟨show s.rxReadPtr + n ≤ s.rxSize by omega, hc.2⟩
    available := fun ha => ?_
    outstanding := fun ho => absurd (hw.symm.trans ho) nofun
    disabled := disabledOk_of_enabled he rfl }
  obtain ⟨hsize, h3, h2, hp, hsum⟩ := h.available ha
  exact ⟨hsize, h3, show 2 ≤ s.rxReadPtr + n by omega, show s.rxReadPtr + n ≤ s.rxSize - 1 by omega,
    checksum_of_mem (s := s) rfl rfl hsum⟩

/-- Sense and LED follow the address that is cleared or taken (R48 (6), (7)). -/
theorem State.Inv.setAddress {a : Byte} (ha : a = 0 ∨ s.cfg.addrInRange a = true) :
    ({ s with devAddr := a }.driveReady (a != 0)).Inv :=
  { h with
    available := h.availableOk_of_same rfl
    address := ha
    ready := ⟨rfl, rfl⟩
    disabled := disabledOk_of_enabled he rfl }

/-! ### The queue and the retry latch -/

theorem State.Inv.storeTx {i : Nat} (hi : i < s.cfg.txCap) (v : Byte) : (s.store .tx i v).Inv := by
  obtain ⟨⟨hrx, htx, hret⟩, hrxIn, htxIn, hretIn⟩ := h.buffers
  exact { h with
    available := h.availableOk_of_same rfl
    disabled := disabledOk_of_enabled he rfl
    buffers := ⟨⟨hrx, Memory.write_wf _ _ _ htx, hret⟩, hrxIn, Memory.write_within _ _ hi htxIn, hretIn⟩ }

/-- The queue stays within `Q_MAX`: a byte that does not fit is dropped (R200). -/
theorem State.Inv.append (v : Byte) : (s.append v).Inv := by
  obtain ⟨-, htx, hq, -⟩ := Config.wf_capacities h.config
  have hr := h.report
  rcases s.append_cases v with ⟨hlt, ha⟩ | ⟨-, ha⟩ <;> rw [ha]
  · have hs := h.storeTx he (i := 2 + s.txReportSize) (by omega) v
    exact { hs with
      available := hs.availableOk_of_same rfl
      report := ⟨show 1 ≤ s.txReportSize + 1 by omega, show s.txReportSize + 1 ≤ s.cfg.qMax by omega⟩
      disabled := disabledOk_of_enabled he rfl }
  · exact (h.flags he _ _ _ true _).outside _ _

theorem State.Inv.clearCycle : s.clearCycle.Inv := by
  obtain ⟨-, htx, hq, -⟩ := Config.wf_capacities h.config
  exact { h with
    available := h.availableOk_of_same rfl
    report := ⟨Nat.le_refl 1, show 1 ≤ s.cfg.qMax by omega⟩
    disabled := disabledOk_of_enabled he rfl }

/-- The checksum slot, the highest index assembly writes, lies in the buffer (R67). -/
theorem State.Inv.assemble (st : Byte) : (s.assemble st).Inv := by
  obtain ⟨-, htx, hq, -⟩ := Config.wf_capacities h.config
  have hr := h.report
  have h0 := h.storeTx he (i := 0) (by omega) s.cfg.hostAddr
  have h1 := h0.storeTx he (i := 1) (show 1 < s.cfg.txCap by omega) (BitVec.ofNat 8 (s.txReportSize + 1))
  have h2 := h1.storeTx he (i := 2) (show 2 < s.cfg.txCap by omega) st
  exact h2.storeTx he (i := s.txReportSize + 2) (show s.txReportSize + 2 < s.cfg.txCap by omega) _

/-- The wire image of a response fits the latch and begins with SYNC (R225, R226). -/
theorem State.Inv.latched {image : List Byte} (hmin : 4 ≤ image.length) (hmax : image.length ≤ s.cfg.txCap) :
    (s.latch image).Inv := by
  obtain ⟨-, -, -, hcap⟩ := Config.wf_capacities h.config
  obtain ⟨⟨hrx, htx, hret⟩, hrxIn, htxIn, hretIn⟩ := h.buffers
  have hlen := wireImage_length s.cfg image
  have hfit : (wireImage s.cfg image).length ≤ s.cfg.retCap := by omega
  have hsync : (s.latch image).byte .ret 0 = s.cfg.sync := by
    have hread : ((s.latch image).mem .ret).read 0 = some s.cfg.sync :=
      Memory.read_writeList_same (wireImage s.cfg image) s.retBuf (i := 0) (k := 0) (by omega)
    rw [State.byte, hread]
  exact { h with
    available := h.availableOk_of_same rfl
    latch := ⟨fun _ => ⟨rfl, show 0 < (wireImage s.cfg image).length by omega⟩,
      fun _ => ⟨show 5 ≤ (wireImage s.cfg image).length by omega, hfit, hsync⟩⟩
    disabled := disabledOk_of_enabled he rfl
    ranges := ⟨Nat.zero_le _, hfit⟩
    buffers := ⟨⟨hrx, htx, Memory.writeList_wf _ _ _ hret⟩, hrxIn, htxIn,
      Memory.writeList_within _ _ (by simpa using hfit) hretIn⟩ }

theorem State.Inv.released : s.released.Inv :=
  { h with
    receiving := fun hr => ⟨(h.receiving hr).1, rfl⟩
    available := nofun
    outstanding := nofun
    disabled := disabledOk_of_enabled he rfl }

theorem State.Inv.flushed : s.flushed.Inv := by
  obtain ⟨-, htx, hq, -⟩ := Config.wf_capacities h.config
  have hr := h.report
  have hs : (s.settleOverflow s.status).Inv := h.flags he _ _ _ _ _
  have ht := hs.assemble he s.status
  have hten : ((s.settleOverflow s.status).assemble s.status).enabled = true := he
  have himage : ((s.settleOverflow s.status).assemble s.status).txImage.length = s.txReportSize + 3 :=
    State.bytes_length _ _ _ _
  have hcap : ((s.settleOverflow s.status).assemble s.status).cfg.txCap = s.cfg.txCap := rfl
  unfold State.flushed
  generalize (s.settleOverflow s.status).assemble s.status = t at *
  exact ((ht.latched hten (image := t.txImage) (by omega) (by omega)).clearCycle hten).outside _ _

theorem State.Inv.retransmit : s.retransmit.Inv := by
  unfold State.retransmit
  split
  · rename_i hv
    obtain ⟨h5, hcap, hsync⟩ := h.latch.2 hv
    exact { h with
      available := h.availableOk_of_same rfl
      latch := ⟨fun _ => ⟨hv, show 0 < s.retLen by omega⟩, h.latch.2⟩
      disabled := disabledOk_of_enabled he rfl
      ranges := ⟨Nat.zero_le _, hcap⟩ }
  · obtain ⟨-, htx, -, -⟩ := Config.wf_capacities h.config
    exact (h.latched he (image := emptyRetryImage s.cfg) (Nat.le_refl 4) htx.1).outside _ _

end Enabled

/-! ### The receiver -/

/-- The length field as it reads after a byte is stored: the byte itself at index 1, else unchanged (R81, R124). -/
theorem rxPut_rxLen (b : Byte) (s : State) :
    (rxPut b s).rxLen = if s.rxSize = 1 then (unescaped s.rxEscaping b).toNat else s.rxLen := by
  unfold State.rxLen
  split
  · rename_i h1
    have hb := rxPut_byte_same b s
    rw [h1] at hb
    rw [hb]
  · rename_i h1
    rw [rxPut_byte_other b s (.inr (Ne.symm h1))]

/-- Everything the classification of a stored byte can do: end the frame without making it available, go
on with it, or complete it with the right checksum and address (R126 to R130). -/
theorem rxClassify_cases (v : Byte) (i : Nat) (s : State) :
    (∃ ovf c, rxClassify v i s = { s with rxReceiving := false, rxOvfPending := ovf }.raise c) ∨
    (rxClassify v i s = s ∧ (i = 1 → v.toNat + 2 ≤ s.cfg.rxCap ∧ v ≠ 0) ∧ (2 ≤ i → i + 1 ≠ s.rxLen + 2)) ∨
    (2 ≤ i ∧ i + 1 = s.rxLen + 2 ∧ sum8 (s.bytes .rx 0 i) = v ∧ s.accepts (s.byte .rx 0) = true ∧
      rxClassify v i s = { s with rxReceiving := false, rxAvailable := true, rxReadPtr := 2 }.raise
        (.frameAccepted (s.byte .rx 0) s.rxLen)) := by
  by_cases h1 : i = 1
  · have hc : rxClassify v i s = rxLenStored v s := if_pos (by omega)
    rw [hc]
    unfold rxLenStored
    dsimp only
    split
    · exact .inl ⟨_, _, rfl⟩
    · split
      · exact .inl ⟨_, _, rfl⟩
      · rename_i hv hfit
        exact .inr (.inl ⟨rfl, fun _ => ⟨by omega, hv⟩, by omega⟩)
  · by_cases hlast : 2 ≤ i ∧ i + 1 = s.rxLen + 2
    · rw [rxClassify_last v hlast.1 hlast.2]
      unfold rxCompleted
      dsimp only
      split
      · exact .inl ⟨_, _, rfl⟩
      · split
        · rename_i hsum ha
          exact .inr (.inr ⟨hlast.1, hlast.2, not_not.1 hsum, ha, rfl⟩)
        · exact .inl ⟨_, _, rfl⟩
    · exact .inr (.inl ⟨rxClassify_inside v h1 (by omega), fun h => absurd h h1, fun h2 h => hlast ⟨h2, h⟩⟩)

/-- A frame that becomes available is complete, its checksum holds, and it passes the address filter of the state it
completes in (R128 to R130). -/
theorem rxStore_accepted {s t : State} {b : Byte} (h : rxStore b s = .next t) (hs : s.rxAvailable = false)
    (ht : t.rxAvailable = true) :
    t.rxSize = t.rxLen + 2 ∧ 3 ≤ t.rxSize ∧ t.rxReadPtr = 2 ∧
      sum8 (t.bytes .rx 0 (t.rxSize - 1)) = t.byte .rx (t.rxSize - 1) ∧ s.accepts (t.byte .rx 0) = true := by
  obtain ⟨-, rfl⟩ := rxStore_next h
  have hput : (rxPut b s).rxAvailable = false := hs
  rcases rxClassify_cases (unescaped s.rxEscaping b) s.rxSize (rxPut b s) with
    ⟨ovf, c, he⟩ | ⟨he, -, -⟩ | ⟨h2, hlen, hsum, ha, he⟩ <;> rw [he] at ht ⊢
  · exact absurd (hput.symm.trans ht) nofun
  · exact absurd (hput.symm.trans ht) nofun
  · have hsum' : sum8 ((rxPut b s).bytes .rx 0 s.rxSize) = (rxPut b s).byte .rx s.rxSize := by
      rw [rxPut_byte_same, hsum]
    exact ⟨hlen, show 3 ≤ s.rxSize + 1 by omega, rfl, checksum_of_mem (s := rxPut b s) rfl rfl hsum', ha⟩

section Receiving

variable {s : State} (h : s.Inv)
include h

/-- With no frame available no command is handed out (R48 (5)). -/
theorem State.Inv.not_outstanding (ha : s.rxAvailable = false) : s.cmdOutstanding = false := by
  cases ho : s.cmdOutstanding with
  | false => rfl
  | true => exact absurd (ha.symm.trans (h.outstanding ho).1) nofun

theorem State.Inv.rxStart (he : s.enabled = true) (ha : s.rxAvailable = false) : (rxStart s).Inv :=
  { h with
    cursor := ⟨Nat.le_refl 0, Nat.zero_le _⟩
    escape := fun _ => rfl
    receiving := fun _ => ⟨.inl (Nat.zero_le 1), ha⟩
    available := fun hav => absurd (ha.symm.trans hav) nofun
    outstanding := fun ho => absurd ((h.not_outstanding ha).symm.trans ho) nofun
    disabled := disabledOk_of_enabled he rfl }

/-- Mid-frame the next byte has a place in the buffer, so its store does not fault (R48 (3)). -/
theorem State.Inv.rxSize_lt (hr : s.rxReceiving = true) : s.rxSize < s.cfg.rxCap := by
  have hcap := (Config.wf_capacities h.config).1
  have hrec := (h.receiving hr).1
  omega

/-- A stored byte leaves a frame in progress short of its declared end, and that end within the buffer (R48 (3)). -/
theorem State.Inv.receivingOk_of_rxStore {t : State} {b : Byte} (ha : s.rxAvailable = false)
    (hr : s.rxReceiving = true) (hst : rxStore b s = .next t) : t.ReceivingOk := by
  obtain ⟨hi, rfl⟩ := rxStore_next hst
  intro hrec
  rcases rxClassify_cases (unescaped s.rxEscaping b) s.rxSize (rxPut b s) with
    ⟨ovf, c, hc⟩ | ⟨hc, hlen, hlast⟩ | ⟨-, -, -, -, hc⟩ <;> rw [hc] at hrec ⊢
  · exact absurd hrec nofun
  · refine ⟨?_, ha⟩
    have hput := rxPut_rxLen b s
    have hsize : (rxPut b s).rxSize = s.rxSize + 1 := rfl
    have hcap : (rxPut b s).cfg.rxCap = s.cfg.rxCap := rfl
    have hold := (h.receiving hr).1
    by_cases h1 : s.rxSize = 1
    · obtain ⟨hfit, hne⟩ := hlen h1
      have hpos : (unescaped s.rxEscaping b).toNat ≠ 0 := fun h0 => hne (BitVec.eq_of_toNat_eq h0)
      rw [if_pos h1] at hput
      right; omega
    · rw [if_neg h1] at hput
      omega
  · exact absurd hrec nofun

/-- The cursor and the stored bytes stay within the buffer (R48 (1)). -/
theorem State.Inv.cursorOk_of_rxStore {t : State} {b : Byte} (hst : rxStore b s = .next t) : t.CursorOk := by
  obtain ⟨hi, rfl⟩ := rxStore_next hst
  have hcur := h.cursor
  rcases rxClassify_cases (unescaped s.rxEscaping b) s.rxSize (rxPut b s) with
    ⟨ovf, c, hc⟩ | ⟨hc, -, -⟩ | ⟨h2, -, -, -, hc⟩ <;> rw [hc]
  · exact ⟨show s.rxReadPtr ≤ s.rxSize + 1 by omega, hi⟩
  · exact ⟨show s.rxReadPtr ≤ s.rxSize + 1 by omega, hi⟩
  · exact ⟨show 2 ≤ s.rxSize + 1 by omega, hi⟩

theorem State.Inv.rxStore {t : State} {b : Byte} (he : s.enabled = true) (ha : s.rxAvailable = false)
    (hr : s.rxReceiving = true) (hst : rxStore b s = .next t) : t.Inv := by
  have hcursor := h.cursorOk_of_rxStore hst
  have hreceiving := h.receivingOk_of_rxStore ha hr hst
  have havailable : t.AvailableOk := fun hav => by
    obtain ⟨hlen, h3, hp, hsum, -⟩ := rxStore_accepted hst ha hav
    exact ⟨hlen, h3, by omega, by omega, hsum⟩
  obtain ⟨u, hu, -, -, -, hframe⟩ := rxStore_spec s b (h.rxSize_lt hr)
  obtain rfl : u = t := Host.Outcome.next.inj (hu.symm.trans hst)
  obtain ⟨⟨hrx, htx, hret⟩, hrxIn, htxIn, hretIn⟩ := h.buffers
  rw [hframe] at hcursor hreceiving havailable ⊢
  exact { h with
    cursor := hcursor
    escape := fun _ => rfl
    receiving := hreceiving
    available := havailable
    outstanding := fun ho => absurd ((h.not_outstanding ha).symm.trans ho) nofun
    disabled := disabledOk_of_enabled he rfl
    buffers := ⟨⟨Memory.write_wf _ _ _ hrx, htx, hret⟩,
      Memory.write_within _ _ (h.rxSize_lt hr) hrxIn, htxIn, hretIn⟩ }

end Receiving

/-! ### The walk of GET_NEXT -/

/-- The states a walk passes through (R161): good, enabled, with a frame available and no command handed out. -/
structure State.Walking (s : State) : Prop where
  inv : s.Inv
  enabled : s.enabled = true
  available : s.rxAvailable = true
  waiting : s.cmdOutstanding = false

/-- An operand exists where DATA has a byte behind the opcode (R91, R171). -/
theorem State.headOperand_eq_some {s : State} {a : Byte} (h : s.headOperand = some a) :
    2 ≤ s.windowLen ∧ a = s.byte .rx (s.rxReadPtr + 1) := by
  unfold State.headOperand at h
  split at h
  · cases h
  · exact ⟨by omega, (Option.some.inj h).symm⟩

theorem State.append_windowLen (s : State) (v : Byte) : (s.append v).windowLen = s.windowLen := by
  simp [State.windowLen, State.dataEnd]

/-- No accepted address is 0, so sense and LED show that one is held (R8 (3), R48 (6), (7)). -/
theorem Config.ne_zero_of_addrInRange {c : Config} (hc : c.wf = true) {a : Byte} (ha : c.addrInRange a = true) :
    a ≠ 0 := by
  have h3 := (c.wf_iff.1 hc).2.2.1
  simp only [Config.addressesOk, Config.addrInRange, Bool.and_eq_true, decide_eq_true_eq] at h3 ha
  bv_omega

section Walk

variable {s : State} (h : s.Walking)
include h

theorem State.Walking.malformed (op : Byte) : (s.malformed op).Walking where
  inv := (h.inv.flags h.enabled _ _ _ _ _).outside _ _
  enabled := h.enabled
  available := h.available
  waiting := h.waiting

theorem State.Walking.advance {n : Nat} (hn : n ≤ s.windowLen) : (s.advance n).Walking where
  inv := h.inv.advance h.enabled h.waiting hn
  enabled := h.enabled
  available := h.available
  waiting := h.waiting

theorem State.Walking.append (v : Byte) : (s.append v).Walking where
  inv := h.inv.append h.enabled v
  enabled := (s.append_enabled v).trans h.enabled
  available := (s.append_rxAvailable v).trans h.available
  waiting := (s.append_cmdOutstanding v).trans h.waiting

theorem State.Walking.setAddress {a : Byte} (ha : a = 0 ∨ s.cfg.addrInRange a = true) (resetSeen : Bool) :
    ({ s with devAddr := a, cycResetSeen := resetSeen }.driveReady (a != 0)).Walking where
  inv := (h.inv.setAddress h.enabled ha).flags h.enabled _ _ resetSeen _ _
  enabled := h.enabled
  available := h.available
  waiting := h.waiting

theorem State.Walking.resetHead : (s.resetHead s.headOperand).Walking := by
  rcases s.resetHead_cases s.headOperand with ⟨harg, he⟩ | ⟨-, he⟩ <;> rw [he]
  · exact (h.setAddress (.inl rfl) true).advance (State.headOperand_eq_some harg).1
  · exact h.malformed _

theorem State.Walking.setaddrHead : (s.setaddrHead s.headOperand).Walking := by
  rcases s.setaddrHead_cases s.headOperand with ⟨-, he⟩ | ⟨a, harg, hacc, he⟩ | ⟨a, harg, -, he⟩ <;> rw [he]
  · exact h.malformed _
  · have hrange : s.cfg.addrInRange a = true := ((Bool.and_eq_true _ _).mp hacc).2
    have haddr := h.setAddress (.inr hrange) s.cycResetSeen
    rw [bne_iff_ne.2 (Config.ne_zero_of_addrInRange h.inv.config hrange)] at haddr
    refine (haddr.append s.cfg.reportOk).advance ?_
    rw [State.append_windowLen]
    exact (State.headOperand_eq_some harg).1
  · refine (h.append s.cfg.reportParamIgnored).advance ?_
    rw [State.append_windowLen]
    exact (State.headOperand_eq_some harg).1

/-- The end of the cycle does not fault: the queue leaves room for the checksum (R67, R168). -/
theorem State.Walking.endCycle : ∃ t, andThen (endCycle s) answerNone = .next t ∧ t.Inv := by
  have hreleased := h.inv.released h.enabled
  obtain ⟨-, htx, hq, -⟩ := Config.wf_capacities h.inv.config
  have hr := h.inv.report
  rcases endCycle_cases s with ⟨-, he⟩ | ⟨-, -, he⟩ | ⟨-, hfull, -⟩
  · exact ⟨_, by rw [he]; rfl, (hreleased.clearCycle h.enabled).outside _ _⟩
  · exact ⟨_, by rw [he]; rfl, (hreleased.flushed h.enabled).outside _ _⟩
  · omega

theorem State.Walking.execRetry : ∃ t, execRetry s = .next t ∧ t.Inv :=
  ⟨_, rfl, (((h.inv.released h.enabled).clearCycle h.enabled).retransmit h.enabled).outside _ _⟩

end Walk

/-- Every walk comes to an end without a fault, in a good state. -/
theorem State.Walking.walk (n : Nat) : ∀ {s : State}, s.Walking → ∃ t, walk n s = .next t ∧ t.Inv := by
  induction n with
  | zero => exact fun h => ⟨_, rfl, h.inv⟩
  | succ n ih =>
    intro s h
    by_cases hd : s.cycAbandon = true ∨ s.dataEnd ≤ s.rxReadPtr
    · rw [walk_end hd]
      exact h.endCycle
    · rw [not_or, Bool.not_eq_true, Nat.not_le] at hd
      have hcap : s.dataEnd ≤ s.cfg.rxCap := le_trans (Nat.sub_le _ _) h.inv.cursor.2
      rw [walk_head hd.1 hd.2 hcap]
      cases headClassOf s.cfg s.headOpcode with
      | reset => exact ih h.resetHead
      | setaddr => exact ih h.setaddrHead
      | retry => exact h.execRetry
      | opaqueCmd => exact ⟨_, rfl, (h.inv.handOut h.enabled h.available hd.2).outside _ _⟩

/-! ### The events -/

theorem State.commandOut_iff (s : State) :
    s.commandOut = true ↔ s.enabled = true ∧ s.rxAvailable = true ∧ s.cmdOutstanding = true := by
  simp only [State.commandOut, Bool.and_eq_true, and_assoc]

/-- A command head, which is no event of its own (R90, R161; log entry 8). -/
def isCommandHead : Instr → Bool
  | .reset _ | .setaddr _ | .retry | .opaqueCmd _ => true
  | .nop | .getNext | .consume _ | .pushReport _ | .pushData _ | .beginOp | .endOp | .unknownCmd => false
  | .rxSync | .rxMark | .rxData _ | .txEmit | .rst => false

/-- The agents offer events, never a command head (R85, R100 to R104). -/
theorem decodeOffer_not_head (c : Config) (o : Offer) : isCommandHead (decodeOffer c o) = false := by
  cases o with
  | callerOp w => rw [decodeOffer, decodeCaller]; cases callerOpOf w <;> rfl
  | rxByte b => rw [decodeOffer, decodeRx]; cases rxClassOf c b <;> rfl
  | txReady => rfl
  | rst => rfl

section Events

variable {s : State} (h : s.Inv)
include h

theorem State.Inv.execGetNext : ∃ t, execGetNext s = .next t ∧ t.Inv := by
  rcases execGetNext_cases s with
    ⟨-, he⟩ | ⟨-, -, he⟩ | ⟨-, -, -, he⟩ | ⟨-, -, -, -, he⟩ | ⟨hen, hav, ho, -, he⟩ <;> rw [he]
  · exact ⟨_, rfl, h.outside _ _⟩
  · exact ⟨_, rfl, h.outside _ _⟩
  · exact ⟨_, rfl, h.outside _ _⟩
  · exact ⟨_, rfl, h⟩
  · obtain ⟨t, ht, hinv⟩ := State.Walking.walk (s.windowLen + 1) ⟨h, hen, hav, ho⟩
    rw [ht]
    exact ⟨_, rfl, hinv.outside _ _⟩

theorem State.Inv.execConsume (n : Byte) : ∃ t, execConsume n s = .next t ∧ t.Inv := by
  unfold Machine.execConsume
  split
  · rename_i ho
    obtain ⟨he, -, -⟩ := s.commandOut_iff.1 ho
    dsimp only
    split
    · rename_i hn
      exact ⟨_, rfl, ((h.withdraw he).advance he rfl hn.2).outside _ _⟩
    · exact ⟨_, rfl, ((h.withdraw he).flags he true true _ _ _).outside _ _⟩
  · exact ⟨_, rfl, h.outside _ _⟩

/-- The opcode UNKNOWN_CMD records lies in DATA (R48 (5), R164). -/
theorem State.Inv.execUnknownCmd : ∃ t, execUnknownCmd s = .next t ∧ t.Inv := by
  unfold Machine.execUnknownCmd
  split
  · rename_i ho
    obtain ⟨he, -, hout⟩ := s.commandOut_iff.1 ho
    have hptr := (h.outstanding hout).2
    have hcur := h.cursor.2
    rw [if_pos ((s.hasIndex_iff .rx s.rxReadPtr).2 (show s.rxReadPtr < s.cfg.rxCap by omega))]
    exact ⟨_, rfl, ((h.withdraw he).flags he true true _ _ _).outside _ _⟩
  · exact ⟨_, rfl, h.outside _ _⟩

theorem State.Inv.execPushReport (c : Byte) : ∃ t, execPushReport c s = .next t ∧ t.Inv := by
  unfold Machine.execPushReport
  split
  · rename_i ho
    have he : s.enabled = true := ((Bool.and_eq_true _ _).mp ho).1
    have he' : (s.append c).enabled = true := (s.append_enabled c).trans he
    exact ⟨_, rfl, ((h.append he c).flags he' _ _ _ _ _).outside _ _⟩
  · exact ⟨_, rfl, h.outside _ _⟩

theorem State.Inv.execPushData (b : Byte) : ∃ t, execPushData b s = .next t ∧ t.Inv := by
  unfold Machine.execPushData
  split
  · rename_i ho
    exact ⟨_, rfl, (h.append ((Bool.and_eq_true _ _).mp ho).1 b).outside _ _⟩
  · exact ⟨_, rfl, h.outside _ _⟩

theorem State.Inv.execBegin : ∃ t, execBegin s = .next t ∧ t.Inv :=
  ⟨_, rfl, h.resetCore.enable.outside _ _⟩

theorem State.Inv.execEnd : ∃ t, execEnd s = .next t ∧ t.Inv := by
  unfold Machine.execEnd
  split
  · exact ⟨_, rfl, h.resetCore.outside _ _⟩
  · exact ⟨_, rfl, h.outside _ _⟩

/-- While emitting the core is enabled, and the cursor is short of the retained length (R48 (9), (10)). -/
theorem State.Inv.execTxEmit : ∃ t, execTxEmit s = .next t ∧ t.Inv := by
  unfold Machine.execTxEmit
  split
  · rename_i hem
    obtain ⟨hval, hptr⟩ := h.latch.1 hem
    have hcap := h.ranges.2
    rw [if_pos ((s.hasIndex_iff .ret s.txEmitPtr).2 (show s.txEmitPtr < s.cfg.retCap by omega))]
    refine ⟨_, rfl, ?_⟩
    have hmoved : { s with txEmitPtr := s.txEmitPtr + 1, txEmitting := decide (s.txEmitPtr + 1 ≠ s.retLen) }.Inv :=
      { h with
        available := h.availableOk_of_same rfl
        latch := ⟨fun hne => ⟨hval, Nat.lt_of_le_of_ne hptr (of_decide_eq_true hne)⟩, h.latch.2⟩
        disabled := fun hd => by
          obtain ⟨-, -, -, -, -, -, -, -, hidle⟩ := h.disabled hd
          exact absurd (hidle.symm.trans hem) nofun
        ranges := ⟨hptr, hcap⟩ }
    exact hmoved.outside _ _
  · exact ⟨_, rfl, h⟩

/-- A held or dropped byte changes nothing, so the gate keeps the invariants if what it passes on does (R121). -/
theorem State.Inv.rxGate {f : State → Result}
    (hf : s.enabled = true → s.rxAvailable = false → ∃ t, f s = .next t ∧ t.Inv) :
    ∃ t, rxGate s f = .next t ∧ t.Inv := by
  rcases rxGate_cases s f with hg | ⟨he, ha, hg⟩ <;> rw [hg]
  · exact ⟨_, rfl, h⟩
  · exact hf he ha

theorem State.Inv.rxStored (he : s.enabled = true) (ha : s.rxAvailable = false) (hr : s.rxReceiving = true)
    (b : Byte) : ∃ t, Machine.rxStore b s = .next t ∧ t.Inv := by
  obtain ⟨t, ht, -⟩ := rxStore_spec s b (h.rxSize_lt hr)
  exact ⟨t, ht, h.rxStore he ha hr ht⟩

theorem State.Inv.execRxSync : ∃ t, execRxSync s = .next t ∧ t.Inv := by
  refine h.rxGate fun he ha => ?_
  split
  · exact ⟨_, rfl, h.rxStart he ha⟩
  · rename_i hmid
    have hr : s.rxReceiving = true := by
      simp only [Bool.or_eq_true, Bool.not_eq_true', not_or, Bool.not_eq_false] at hmid
      exact hmid.1
    exact h.rxStored he ha hr s.cfg.sync

theorem State.Inv.execRxMark : ∃ t, execRxMark s = .next t ∧ t.Inv := by
  refine h.rxGate fun he _ => ?_
  split
  · rename_i hr
    exact ⟨_, rfl, { h with
      escape := fun hn => absurd (hr.symm.trans hn) nofun
      available := h.availableOk_of_same rfl
      disabled := disabledOk_of_enabled he rfl }⟩
  · exact ⟨_, rfl, h⟩

theorem State.Inv.execRxData (b : Byte) : ∃ t, execRxData b s = .next t ∧ t.Inv := by
  refine h.rxGate fun he ha => ?_
  split
  · rename_i hr
    exact h.rxStored he ha hr b
  · exact ⟨_, rfl, h⟩

/-- Every event, from a good state, has a next state, and that state is good. -/
theorem State.Inv.exec {i : Instr} (hi : isCommandHead i = false) : ∃ t, exec i s = .next t ∧ t.Inv := by
  cases i with
  | nop => exact ⟨_, rfl, h.outside _ _⟩
  | getNext => exact h.execGetNext
  | consume n => exact h.execConsume n
  | pushReport c => exact h.execPushReport c
  | pushData b => exact h.execPushData b
  | beginOp => exact h.execBegin
  | endOp => exact h.execEnd
  | unknownCmd => exact h.execUnknownCmd
  | rxSync => exact h.execRxSync
  | rxMark => exact h.execRxMark
  | rxData b => exact h.execRxData b
  | txEmit => exact h.execTxEmit
  | reset arg => cases hi
  | setaddr a => cases hi
  | retry => cases hi
  | opaqueCmd op => cases hi
  | rst => exact ⟨_, rfl, h.resetCore⟩

/-! ### The step -/

/-- A step from a good state has a next state, and that state is good: no event, or one that an agent offers. -/
theorem State.Inv.step : ∃ t, step s = .next t ∧ t.Inv := by
  unfold Machine.step fetch
  rw [if_pos h.config]
  cases pickOffer s [] s.offers with
  | none => exact ⟨s, rfl, h⟩
  | some p => exact State.Inv.exec (h.outside p.2 s.trace) (decodeOffer_not_head s.cfg p.1)

end Events

/-- R52: the declared widths hold the counters of a good state. -/
theorem State.Inv.widths {s : State} (h : s.Inv) :
    s.rxSize < 2 ^ 9 ∧ s.rxReadPtr < 2 ^ 9 ∧ s.txReportSize < 2 ^ 8 ∧ s.retLen < 2 ^ 10 ∧ s.txEmitPtr < 2 ^ 10 := by
  obtain ⟨hrx, htx, hq, hret⟩ := Config.wf_capacities h.config
  have hcur := h.cursor
  have hrep := h.report
  have hran := h.ranges
  omega

/-- Settles O57: from a good state the next state is good, event by event. -/
theorem everyStepKeepsTheInvariants : Obligations.EveryStepKeepsTheInvariants := by
  intro s t h hst
  obtain ⟨u, hu, hinv⟩ := h.step
  obtain rfl : u = t := Host.Outcome.next.inj (hu.symm.trans hst)
  exact hinv

/-- Settles O58: a step from a good state has a next state; and power-on is good and every step keeps that. -/
theorem reachableStatesAreGoodAndSafe : Obligations.ReachableStatesAreGoodAndSafe := by
  refine ⟨fun s h => ⟨h.step.imp fun _ ht => ht.1, h.widths⟩, fun s hs => ?_⟩
  induction hs with
  | powerOn c offers hc => exact powerOnSatisfiesTheInvariants.2 c offers hc
  | step s t _ hst ih => exact everyStepKeepsTheInvariants s t ih hst

/-! ### CMD_BYTE (R44) -/

/-- The window of the command handed out lies in the receive buffer (R48 (1)). -/
theorem State.Inv.hasIndex_window {s : State} (h : s.Inv) {i : Nat} (hi : i < s.windowLen) :
    s.hasIndex .rx (s.rxReadPtr + i) = true := by
  have hi' : i < s.rxSize - 1 - s.rxReadPtr := hi
  have hcur := h.cursor
  exact (s.hasIndex_iff .rx _).2 (show s.rxReadPtr + i < s.cfg.rxCap by omega)

/-- Settles O29: in a good state the buffer has every index of the window, so the window alone decides. -/
theorem cmdByteReadsTheWindow : Obligations.CmdByteReadsTheWindow := by
  intro s i h
  constructor
  · rintro ⟨ha, ho, hi⟩
    have hidx := h.hasIndex_window hi
    exact if_pos (by rw [ha, ho, hidx, decide_eq_true (show i < s.windowLen from hi)]; rfl)
  · intro hout
    refine if_neg fun hc => hout ?_
    simp only [Bool.and_eq_true, decide_eq_true_eq] at hc
    exact ⟨hc.1.1.1, hc.1.1.2, hc.1.2⟩

end Sys2Proof.Machine

/-! SUPPORT. What an event leaves as it was (O48, O51, O59, O60): its effects said once, from which each statement about the
configuration, the address, the available frame and the driver calls is read off. -/

namespace Sys2Proof.Machine

/-! ### What stays -/

/-- The configuration, the offers, the draw and `enabled` stay, and no driver's `set(v)` is called. -/
structure State.Steady (s t : State) : Prop where
  cfg : t.cfg = s.cfg
  offers : t.offers = s.offers
  draws : t.draws = s.draws
  enabled : t.enabled = s.enabled
  calls : setCalls t.trace = setCalls s.trace

/-- The address, sense and LED stay (R29, R30). -/
structure State.SameReady (s t : State) : Prop where
  devAddr : t.devAddr = s.devAddr
  senseReady : t.senseReady = s.senseReady
  ledReady : t.ledReady = s.ledReady

/-- Both stay. -/
structure State.Quiet (s t : State) : Prop extends s.Steady t, s.SameReady t

theorem State.Steady.trans {s t u : State} (h : s.Steady t) (k : t.Steady u) : s.Steady u :=
  ⟨k.cfg.trans h.cfg, k.offers.trans h.offers, k.draws.trans h.draws, k.enabled.trans h.enabled, k.calls.trans h.calls⟩

theorem State.SameReady.trans {s t u : State} (h : s.SameReady t) (k : t.SameReady u) : s.SameReady u :=
  ⟨k.devAddr.trans h.devAddr, k.senseReady.trans h.senseReady, k.ledReady.trans h.ledReady⟩

theorem State.Quiet.trans {s t u : State} (h : s.Quiet t) (k : t.Quiet u) : s.Quiet u :=
  ⟨h.toSteady.trans k.toSteady, h.toSameReady.trans k.toSameReady⟩

/-- An update of other fields is quiet if the trace gains no call `set(v)`. -/
theorem State.Quiet.of_eq {s t : State} (ht : t = { t with
      enabled := s.enabled, devAddr := s.devAddr, senseReady := s.senseReady, ledReady := s.ledReady
      cfg := s.cfg, draws := s.draws, offers := s.offers })
    (hc : setCalls t.trace = setCalls s.trace) : s.Quiet t :=
  ⟨⟨by rw [ht], by rw [ht], by rw [ht], by rw [ht], hc⟩, ⟨by rw [ht], by rw [ht], by rw [ht]⟩⟩

theorem State.Quiet.refl (s : State) : s.Quiet s := .of_eq rfl rfl

theorem State.append_quiet (s : State) (v : Byte) : s.Quiet (s.append v) := by
  rcases s.append_cases v with ⟨-, h⟩ | ⟨-, h⟩ <;> rw [h] <;> exact .of_eq rfl rfl

/-! ### The shared operations of the walk -/

theorem State.malformed_quiet (s : State) (op : Byte) : s.Quiet (s.malformed op) := .of_eq rfl rfl

theorem State.advance_quiet (s : State) (n : Nat) : s.Quiet (s.advance n) := .of_eq rfl rfl

theorem State.resetHead_steady (s : State) (arg : Option Byte) : s.Steady (s.resetHead arg) := by
  rcases s.resetHead_cases arg with ⟨-, h⟩ | ⟨-, h⟩ <;> rw [h] <;> exact ⟨rfl, rfl, rfl, rfl, rfl⟩

theorem State.setaddrHead_steady (s : State) (arg : Option Byte) : s.Steady (s.setaddrHead arg) := by
  rcases s.setaddrHead_cases arg with ⟨-, h⟩ | ⟨a, -, -, h⟩ | ⟨a, -, -, h⟩ <;> rw [h]
  · exact (s.malformed_quiet _).toSteady
  · have hready : s.Steady ({ s with devAddr := a }.driveReady true) := ⟨rfl, rfl, rfl, rfl, rfl⟩
    exact hready.trans ((State.append_quiet _ _).trans (State.advance_quiet _ 2)).toSteady
  · exact ((s.append_quiet _).trans (State.advance_quiet _ 2)).toSteady

@[simp] theorem State.resetHead_rxAvailable (s : State) (arg : Option Byte) :
    (s.resetHead arg).rxAvailable = s.rxAvailable := by
  rcases s.resetHead_cases arg with ⟨-, h⟩ | ⟨-, h⟩ <;> rw [h] <;> rfl

@[simp] theorem State.setaddrHead_rxAvailable (s : State) (arg : Option Byte) :
    (s.setaddrHead arg).rxAvailable = s.rxAvailable := by
  rcases s.setaddrHead_cases arg with ⟨-, h⟩ | ⟨a, -, -, h⟩ | ⟨a, -, -, h⟩ <;> rw [h]
  · rfl
  · simp
  · simp

theorem endCycle_quiet {s t : State} (h : andThen (endCycle s) answerNone = .next t) : s.Quiet t := by
  rcases endCycle_next h with ⟨rfl, -⟩ | ⟨rfl, -, -⟩
  · exact .of_eq rfl rfl
  · rw [State.flushed_frame]
    exact .of_eq rfl rfl

/-- A retry releases the frame and keeps the rest (R175). -/
theorem execRetry_quiet {s t : State} (h : execRetry s = .next t) : s.Quiet t ∧ t.rxAvailable = false := by
  rw [execRetry_next h, State.retransmit]
  split <;> exact ⟨.of_eq rfl rfl, rfl⟩

theorem execOpaque_quiet {s t : State} {op : Byte} (h : execOpaque op s = .next t) : s.Quiet t := by
  cases h
  exact .of_eq rfl rfl

/-- The walk itself calls no driver: GET_NEXT compares its two ends (R264; log entry 12). -/
theorem walk_steady {s t : State} {n : Nat} (h : walk n s = .next t) : s.Steady t :=
  walk_relation (Pre := fun _ => True) (R := State.Steady)
    (fun s _ => (State.Quiet.refl s).toSteady) (fun _ _ _ => State.Steady.trans)
    (fun _ _ _ hend => (endCycle_quiet hend).toSteady)
    (fun s _ _ _ _ => ⟨s.resetHead_steady _, trivial⟩) (fun s _ _ _ _ => ⟨s.setaddrHead_steady _, trivial⟩)
    (fun _ _ _ hretry => (execRetry_quiet hretry).1.toSteady)
    (fun _ _ _ _ _ hop => (execOpaque_quiet hop).toSteady) n s t trivial h

theorem rxStore_quiet {s t : State} {b : Byte} (h : rxStore b s = .next t) : s.Quiet t := by
  obtain ⟨-, rfl⟩ := rxStore_next h
  rcases rxClassify_cases (unescaped s.rxEscaping b) s.rxSize (rxPut b s) with
    ⟨ovf, c, he⟩ | ⟨he, -, -⟩ | ⟨-, -, -, -, he⟩ <;> rw [he] <;>
    exact .of_eq rfl rfl

/-! ### The effects of an event -/

/-- What an event can do to the address, the available frame and the driver calls: nothing; store a received byte; end the
cycle by a retry; walk the frame, or run one head of it, with the driver calls of the change; or reset. -/
inductive Effect (s : State) : Instr → State → Prop where
  | quiet {i : Instr} {t : State} (ht : s.Quiet t) (ha : t.rxAvailable = s.rxAvailable) : Effect s i t
  | stored {i : Instr} {b : Byte} {t : State} (hi : i = .rxSync ∨ ∃ b, i = .rxData b) (ha : s.rxAvailable = false)
      (ht : rxStore b s = .next t) : Effect s i t
  | retried {t : State} (ht : execRetry s = .next t) : Effect s .retry t
  | walked {n : Nat} {u : State} (ha : s.rxAvailable = true) (hu : walk n s = .next u) :
      Effect s .getNext (s.noteReady u)
  | reset (arg : Option Byte) : Effect s (.reset arg) (s.noteReady (s.resetHead arg))
  | setaddr (arg : Option Byte) : Effect s (.setaddr arg) (s.noteReady (s.setaddrHead arg))
  | reinitialised {i : Instr} {t : State} (hi : i = .beginOp ∨ i = .endOp ∨ i = .rst)
      (ht : t = { s.resetCore with enabled := t.enabled, trace := t.trace })
      (hc : setCalls t.trace = setCalls s.resetCore.trace) : Effect s i t

theorem effect_getNext {s t : State} (h : execGetNext s = .next t) : Effect s .getNext t := by
  rcases execGetNext_next h with
    ⟨-, rfl⟩ | ⟨-, -, rfl⟩ | ⟨-, -, -, rfl⟩ | ⟨-, -, -, -, rfl⟩ | ⟨-, ha, -, -, u, hu, rfl⟩
  · exact .quiet (.of_eq rfl rfl) rfl
  · exact .quiet (.of_eq rfl rfl) rfl
  · exact .quiet (.of_eq rfl rfl) rfl
  · exact .quiet (.refl _) rfl
  · exact .walked ha hu

theorem effect_consume {s t : State} {n : Byte} (h : execConsume n s = .next t) : Effect s (.consume n) t := by
  rcases execConsume_next h with ⟨-, -, -, rfl⟩ | ⟨-, rfl⟩ | rfl <;>
    exact .quiet (.of_eq rfl rfl) rfl

theorem effect_unknownCmd {s t : State} (h : execUnknownCmd s = .next t) : Effect s .unknownCmd t := by
  rcases execUnknownCmd_next h with ⟨-, rfl⟩ | rfl <;>
    exact .quiet (.of_eq rfl rfl) rfl

theorem effect_pushReport {s t : State} {c : Byte} (h : execPushReport c s = .next t) : Effect s (.pushReport c) t := by
  rcases execPushReport_next h with ⟨-, -, rfl⟩ | rfl
  · exact .quiet ((s.append_quiet c).trans (.of_eq rfl rfl)) (s.append_rxAvailable c)
  · exact .quiet (.of_eq rfl rfl) rfl

theorem effect_pushData {s t : State} {b : Byte} (h : execPushData b s = .next t) : Effect s (.pushData b) t := by
  rcases execPushData_next h with ⟨-, -, rfl⟩ | rfl
  · exact .quiet ((s.append_quiet b).trans (.of_eq rfl rfl)) (s.append_rxAvailable b)
  · exact .quiet (.of_eq rfl rfl) rfl

theorem effect_end {s t : State} (h : execEnd s = .next t) : Effect s .endOp t := by
  rcases execEnd_next h with ⟨-, rfl⟩ | ⟨-, rfl⟩
  · exact .reinitialised (.inr (.inl rfl)) rfl rfl
  · exact .quiet (.of_eq rfl rfl) rfl

theorem effect_rxSync {s t : State} (h : execRxSync s = .next t) : Effect s .rxSync t := by
  rcases execRxSync_next h with rfl | ⟨-, ha, rfl | ⟨-, ht⟩⟩
  · exact .quiet (.refl _) rfl
  · exact .quiet (.of_eq rfl rfl) rfl
  · exact .stored (.inl rfl) ha ht

theorem effect_rxMark {s t : State} (h : execRxMark s = .next t) : Effect s .rxMark t := by
  rcases execRxMark_next h with rfl | ⟨-, -, -, rfl⟩ <;>
    exact .quiet (.of_eq rfl rfl) rfl

theorem effect_rxData {s t : State} {b : Byte} (h : execRxData b s = .next t) : Effect s (.rxData b) t := by
  rcases execRxData_next h with rfl | ⟨-, ha, -, ht⟩
  · exact .quiet (.refl _) rfl
  · exact .stored (.inr ⟨b, rfl⟩) ha ht

theorem effect_txEmit {s t : State} (h : execTxEmit s = .next t) : Effect s .txEmit t := by
  rcases execTxEmit_next h with ⟨-, -, rfl⟩ | ⟨-, rfl⟩ <;>
    exact .quiet (.of_eq rfl rfl) rfl

/-- Every event and every command head has one of the effects. -/
theorem exec_effect {s t : State} {i : Instr} (h : exec i s = .next t) : Effect s i t := by
  cases i with
  | nop => cases h; exact .quiet (.of_eq rfl rfl) rfl
  | getNext => exact effect_getNext h
  | consume n => exact effect_consume h
  | pushReport c => exact effect_pushReport h
  | pushData b => exact effect_pushData h
  | beginOp => cases h; exact .reinitialised (.inl rfl) rfl rfl
  | endOp => exact effect_end h
  | unknownCmd => exact effect_unknownCmd h
  | rxSync => exact effect_rxSync h
  | rxMark => exact effect_rxMark h
  | rxData b => exact effect_rxData h
  | txEmit => exact effect_txEmit h
  | reset arg => cases h; exact .reset arg
  | setaddr a => cases h; exact .setaddr a
  | retry => exact .retried h
  | opaqueCmd op => cases h; exact .quiet (.of_eq rfl rfl) rfl
  | rst => cases h; exact .reinitialised (.inr (.inr rfl)) rfl rfl

/-! ### Configuration and offers (R21, R70) -/

/-- An event leaves a steady state, but for the driver calls its end may add, or it re-initialises. -/
theorem Effect.steady {s t : State} {i : Instr} (h : Effect s i t) :
    (∃ u, s.Steady u ∧ (t = u ∨ t = s.noteReady u)) ∨
    ((i = .beginOp ∨ i = .endOp ∨ i = .rst) ∧ t = { s.resetCore with enabled := t.enabled, trace := t.trace }) := by
  cases h with
  | quiet ht _ => exact .inl ⟨t, ht.toSteady, .inl rfl⟩
  | stored _ _ ht => exact .inl ⟨t, (rxStore_quiet ht).toSteady, .inl rfl⟩
  | retried ht => exact .inl ⟨t, (execRetry_quiet ht).1.toSteady, .inl rfl⟩
  | walked _ hu => exact .inl ⟨_, walk_steady hu, .inr rfl⟩
  | reset arg => exact .inl ⟨_, s.resetHead_steady arg, .inr rfl⟩
  | setaddr arg => exact .inl ⟨_, s.setaddrHead_steady arg, .inr rfl⟩
  | reinitialised hi ht _ => exact .inr ⟨hi, ht⟩

/-- Settles O51: a steady event draws nothing; a reset keeps the configuration and the offers. -/
theorem eventsKeepConfigurationAndOffers : Obligations.EventsKeepConfigurationAndOffers := by
  intro s t i h
  rcases (exec_effect h).steady with ⟨u, hu, rfl | rfl⟩ | ⟨hi, ht⟩
  · exact ⟨hu.cfg, hu.offers, fun _ _ _ => hu.draws⟩
  · exact ⟨hu.cfg, hu.offers, fun _ _ _ => hu.draws⟩
  · rw [ht]
    refine ⟨rfl, rfl, fun hb he hr => ?_⟩
    rcases hi with rfl | rfl | rfl
    · exact absurd rfl hb
    · exact absurd rfl he
    · exact absurd rfl hr

/-! ### The available frame (R27, R43) -/

/-- A frame becomes available only by a stored byte. -/
theorem Effect.available_rises {s t : State} {i : Instr} (h : Effect s i t) (hs : s.rxAvailable = false)
    (ht : t.rxAvailable = true) : (i = .rxSync ∨ ∃ b, i = .rxData b) ∧ ∃ b, rxStore b s = .next t := by
  have hne : t.rxAvailable ≠ s.rxAvailable := by simp [hs, ht]
  cases h with
  | quiet _ ha => exact absurd ha hne
  | stored hi _ hst => exact ⟨hi, _, hst⟩
  | retried hr => exact absurd ((execRetry_quiet hr).2.symm.trans ht) nofun
  | walked ha _ => exact absurd (hs.symm.trans ha) nofun
  | reset arg => exact absurd (s.resetHead_rxAvailable arg) hne
  | setaddr arg => exact absurd (s.setaddrHead_rxAvailable arg) hne
  | reinitialised _ he _ => exact absurd ((congrArg State.rxAvailable he).symm.trans ht) nofun

/-- A frame is released only by GET_NEXT, by a retry, and by the three events that re-initialise. -/
theorem Effect.available_falls {s t : State} {i : Instr} (h : Effect s i t) (hs : s.rxAvailable = true)
    (ht : t.rxAvailable = false) : i = .getNext ∨ i = .retry ∨ i = .beginOp ∨ i = .endOp ∨ i = .rst := by
  have hne : t.rxAvailable ≠ s.rxAvailable := by simp [hs, ht]
  cases h with
  | quiet _ ha => exact absurd ha hne
  | stored _ ha _ => exact absurd (ha.symm.trans hs) nofun
  | retried _ => exact .inr (.inl rfl)
  | walked _ _ => exact .inl rfl
  | reset arg => exact absurd (s.resetHead_rxAvailable arg) hne
  | setaddr arg => exact absurd (s.setaddrHead_rxAvailable arg) hne
  | reinitialised hi _ _ => exact .inr (.inr hi)

/-- Settles O59: only the byte that completes a frame with the right checksum and address makes it available. -/
theorem onlyCheckedFramesBecomeAvailable : Obligations.OnlyCheckedFramesBecomeAvailable := by
  intro s t i h hs ht
  obtain ⟨hi, b, hst⟩ := (exec_effect h).available_rises hs ht
  obtain ⟨hlen, -, -, hsum, hacc⟩ := rxStore_accepted hst hs ht
  exact ⟨hi, hlen, hsum, hacc⟩

/-! ### The outputs and the driver calls (R43, R264, R306) -/

theorem State.cmdPending_iff (s : State) : s.cmdPending = true ↔ s.enabled = true ∧ s.rxAvailable = true := by
  simp only [State.cmdPending, Bool.and_eq_true]

/-- An event that does not re-initialise keeps `enabled`. -/
theorem Effect.enabled {s t : State} {i : Instr} (h : Effect s i t) :
    t.enabled = s.enabled ∨ ((i = .beginOp ∨ i = .endOp ∨ i = .rst) ∧ t.rxAvailable = false) := by
  rcases h.steady with ⟨u, hu, rfl | rfl⟩ | ⟨hi, ht⟩
  · exact .inl hu.enabled
  · exact .inl hu.enabled
  · exact .inr ⟨hi, congrArg State.rxAvailable ht⟩

theorem Effect.cmdPending_rises {s t : State} {i : Instr} (h : Effect s i t) (hs : s.cmdPending = false)
    (ht : t.cmdPending = true) : i = .rxSync ∨ ∃ b, i = .rxData b := by
  obtain ⟨hte, hta⟩ := t.cmdPending_iff.1 ht
  rcases h.enabled with he | ⟨-, ha⟩
  · have hsa : s.rxAvailable = false := by simpa [State.cmdPending, ← he, hte] using hs
    exact (h.available_rises hsa hta).1
  · exact absurd (ha.symm.trans hta) nofun

theorem Effect.cmdPending_falls {s t : State} {i : Instr} (h : Effect s i t) (hs : s.cmdPending = true)
    (ht : t.cmdPending = false) : i = .getNext ∨ i = .retry ∨ i = .beginOp ∨ i = .endOp ∨ i = .rst := by
  obtain ⟨hse, hsa⟩ := s.cmdPending_iff.1 hs
  rcases h.enabled with he | ⟨hi, -⟩
  · have hta : t.rxAvailable = false := by simpa [State.cmdPending, he, hse] using ht
    exact h.available_falls hsa hta
  · exact .inr (.inr hi)

/-- The calls `set(v)` between two states are those of the registers that changed, sense before LED. -/
def State.CallsOnChange (s t : State) : Prop :=
  setCalls t.trace = setCalls s.trace ++
    (if t.senseReady = s.senseReady then [] else [.senseSet t.senseReady]) ++
    (if t.ledReady = s.ledReady then [] else [.ledSet t.ledReady])

theorem setCalls_readyCalls (s t : State) (trace : List Note) :
    setCalls (s.readyCalls t ++ trace) = setCalls trace ++
      (if t.senseReady = s.senseReady then [] else [.senseSet t.senseReady]) ++
      (if t.ledReady = s.ledReady then [] else [.ledSet t.ledReady]) := by
  unfold State.readyCalls
  split <;> split <;> simp [setCalls]

theorem State.Quiet.callsOnChange {s t : State} (h : s.Quiet t) : s.CallsOnChange t := by
  simp [State.CallsOnChange, h.calls, h.senseReady, h.ledReady]

theorem State.Steady.callsOnChange_noteReady {s t : State} (h : s.Steady t) : s.CallsOnChange (s.noteReady t) := by
  rw [State.CallsOnChange, State.noteReady_trace, setCalls_readyCalls, h.calls]
  rfl

theorem Effect.callsOnChange {s t : State} {i : Instr} (h : Effect s i t) : s.CallsOnChange t := by
  cases h with
  | quiet ht _ => exact ht.callsOnChange
  | stored _ _ ht => exact (rxStore_quiet ht).callsOnChange
  | retried ht => exact (execRetry_quiet ht).1.callsOnChange
  | walked _ hu => exact (walk_steady hu).callsOnChange_noteReady
  | reset arg => exact (s.resetHead_steady arg).callsOnChange_noteReady
  | setaddr arg => exact (s.setaddrHead_steady arg).callsOnChange_noteReady
  | reinitialised _ ht hc =>
    have hsense : t.senseReady = false := congrArg State.senseReady ht
    have hled : t.ledReady = false := congrArg State.ledReady ht
    rw [State.CallsOnChange, hc, hsense, hled]
    exact setCalls_readyCalls s State.reset s.trace

/-- Settles O60: the outputs are functions of the registers, and each effect makes its driver calls. -/
theorem outputsFollowTheRegisters : Obligations.OutputsFollowTheRegisters := by
  refine fun s => ⟨s.cmdPending_iff, rfl, rfl, fun h => h.ready, fun t i h => ?_⟩
  have heff := exec_effect h
  exact ⟨heff.cmdPending_rises, heff.cmdPending_falls, heff.callsOnChange⟩

/-! ### The address, sense and LED (R29, R264) -/

theorem eq_cmdReset_of_headClassOf {c : Config} {op : Byte} (h : headClassOf c op = .reset) : op = c.cmdReset := by
  unfold headClassOf at h
  split_ifs at h
  assumption

theorem eq_cmdSetaddr_of_headClassOf {c : Config} {op : Byte} (h : headClassOf c op = .setaddr) : op = c.cmdSetaddr := by
  unfold headClassOf at h
  split_ifs at h
  assumption

/-- The byte at the `j`-th two bytes from the cursor is the opcode RESET or SETADDR. -/
def State.ReadyHeadAt (s : State) (j : Nat) : Prop :=
  s.byte .rx (s.rxReadPtr + 2 * j) = s.cfg.cmdReset ∨ s.byte .rx (s.rxReadPtr + 2 * j) = s.cfg.cmdSetaddr

/-- A RESET with its argument or a SETADDR of an assignable address stands in DATA, with only such heads before it. -/
def State.RunsReadyHead (s : State) : Prop :=
  ∃ k, s.rxReadPtr + 2 * k + 1 < s.rxSize - 1 ∧ (∀ j, j ≤ k → s.ReadyHeadAt j) ∧
    ((s.byte .rx (s.rxReadPtr + 2 * k) = s.cfg.cmdReset ∧ s.byte .rx (s.rxReadPtr + 2 * k + 1) = s.cfg.resetArg) ∨
      (s.byte .rx (s.rxReadPtr + 2 * k) = s.cfg.cmdSetaddr ∧
        s.cfg.addrInRange (s.byte .rx (s.rxReadPtr + 2 * k + 1)) = true))

/-- `s` is a command boundary of the walk that began in `o`: the frame is the same, and the cursor stands behind some
RESETs and SETADDRs, unless the frame is abandoned. -/
structure State.OnWalkOf (o s : State) : Prop where
  cfg : s.cfg = o.cfg
  rxSize : s.rxSize = o.rxSize
  bytes : ∀ i, s.byte .rx i = o.byte .rx i
  boundary : s.cycAbandon = true ∨ ∃ m, s.rxReadPtr = o.rxReadPtr + 2 * m ∧ ∀ j, j < m → o.ReadyHeadAt j

theorem State.OnWalkOf.refl (s : State) : s.OnWalkOf s :=
  ⟨rfl, rfl, fun _ => rfl, .inr ⟨0, rfl, nofun⟩⟩

section OnWalk

variable {o s : State} (h : o.OnWalkOf s) (hgo : s.cycAbandon = false)
include h hgo

/-- The boundary of a frame that is not abandoned, with the head that stands there. -/
theorem State.OnWalkOf.boundary_of_head (hop : s.headOpcode = s.cfg.cmdReset ∨ s.headOpcode = s.cfg.cmdSetaddr) :
    ∃ m, s.rxReadPtr = o.rxReadPtr + 2 * m ∧ ∀ j, j ≤ m → o.ReadyHeadAt j := by
  rcases h.boundary with habandon | ⟨m, hptr, hbefore⟩
  · exact absurd (hgo.symm.trans habandon) nofun
  · refine ⟨m, hptr, fun j hj => ?_⟩
    rcases Nat.lt_or_eq_of_le hj with hlt | rfl
    · exact hbefore j hlt
    · rwa [State.headOpcode, h.bytes, h.cfg, hptr] at hop

/-- A RESET or SETADDR leads to the next boundary, two bytes on, or abandons the frame. -/
theorem State.OnWalkOf.next (hop : s.headOpcode = s.cfg.cmdReset ∨ s.headOpcode = s.cfg.cmdSetaddr) {t : State}
    (hcfg : t.cfg = s.cfg) (hsize : t.rxSize = s.rxSize) (hbytes : ∀ i, t.byte .rx i = s.byte .rx i)
    (hptr : t.cycAbandon = true ∨ t.rxReadPtr = s.rxReadPtr + 2) : o.OnWalkOf t := by
  obtain ⟨m, hm, hheads⟩ := h.boundary_of_head hgo hop
  refine ⟨hcfg.trans h.cfg, hsize.trans h.rxSize, fun i => (hbytes i).trans (h.bytes i), hptr.imp_right fun hp => ?_⟩
  exact ⟨m + 1, by omega, fun j hj => hheads j (Nat.le_of_lt_succ hj)⟩

/-- A head on the walk that has its right operand is the one the statement speaks of. -/
theorem State.OnWalkOf.runsReadyHead {a : Byte} (ha : s.headOperand = some a)
    (hop : (s.headOpcode = s.cfg.cmdReset ∧ a = s.cfg.resetArg) ∨
      (s.headOpcode = s.cfg.cmdSetaddr ∧ s.cfg.addrInRange a = true)) : o.RunsReadyHead := by
  obtain ⟨m, hm, hheads⟩ := h.boundary_of_head hgo (hop.imp And.left And.left)
  obtain ⟨hwin, rfl⟩ := State.headOperand_eq_some ha
  have hwin' : 2 ≤ s.rxSize - 1 - s.rxReadPtr := hwin
  have hsize := h.rxSize
  rw [State.headOpcode, h.bytes, h.bytes, h.cfg, hm] at hop
  exact ⟨m, by omega, hheads, hop⟩

theorem State.OnWalkOf.resetHead (hcl : headClassOf s.cfg s.headOpcode = .reset) :
    (s.SameReady (s.resetHead s.headOperand) ∨ o.RunsReadyHead) ∧ o.OnWalkOf (s.resetHead s.headOperand) := by
  have hop := eq_cmdReset_of_headClassOf hcl
  rcases s.resetHead_cases s.headOperand with ⟨harg, he⟩ | ⟨-, he⟩ <;> rw [he]
  · exact ⟨.inr (h.runsReadyHead hgo harg (.inl ⟨hop, rfl⟩)),
      h.next hgo (.inl hop) rfl rfl (fun _ => rfl) (.inr rfl)⟩
  · exact ⟨.inl (s.malformed_quiet _).toSameReady, h.next hgo (.inl hop) rfl rfl (fun _ => rfl) (.inl rfl)⟩

theorem State.OnWalkOf.setaddrHead (hcl : headClassOf s.cfg s.headOpcode = .setaddr) :
    (s.SameReady (s.setaddrHead s.headOperand) ∨ o.RunsReadyHead) ∧ o.OnWalkOf (s.setaddrHead s.headOperand) := by
  have hop := eq_cmdSetaddr_of_headClassOf hcl
  have happ : ∀ (u : State) (v : Byte) (i : Nat), ((u.append v).advance 2).byte .rx i = u.byte .rx i := fun u v i =>
    State.byte_congr i (u.append_rxBuf v) (u.append_draws v)
  rcases s.setaddrHead_cases s.headOperand with ⟨-, he⟩ | ⟨a, harg, hacc, he⟩ | ⟨a, -, -, he⟩ <;> rw [he]
  · exact ⟨.inl (s.malformed_quiet _).toSameReady, h.next hgo (.inr hop) rfl rfl (fun _ => rfl) (.inl rfl)⟩
  · refine ⟨.inr (h.runsReadyHead hgo harg (.inr ⟨hop, ((Bool.and_eq_true _ _).mp hacc).2⟩)),
      h.next hgo (.inr hop) (by simp) (by simp) (fun i => ?_) (.inr (by simp))⟩
    exact happ ({ s with devAddr := a }.driveReady true) _ i
  · exact ⟨.inl ((s.append_quiet _).trans (State.advance_quiet _ 2)).toSameReady,
      h.next hgo (.inr hop) (by simp) (by simp) (happ s _) (.inr (by simp))⟩

end OnWalk

/-- A walk changes the address, sense or LED only by a RESET or SETADDR it runs. -/
theorem walk_sameReady_or_runs {s t : State} {n : Nat} (h : walk n s = .next t) : s.SameReady t ∨ s.RunsReadyHead :=
  walk_relation (Pre := s.OnWalkOf) (R := fun u v => u.SameReady v ∨ s.RunsReadyHead)
    (fun u _ => .inl (State.Quiet.refl u).toSameReady)
    (fun _ _ _ huv hvw => huv.elim (fun h1 => hvw.imp_left h1.trans) .inr)
    (fun _ _ _ hend => .inl (endCycle_quiet hend).toSameReady)
    (fun _ hu hgo _ hcl => hu.resetHead hgo hcl) (fun _ hu hgo _ hcl => hu.setaddrHead hgo hcl)
    (fun _ _ _ hretry => .inl (execRetry_quiet hretry).1.toSameReady)
    (fun _ _ _ _ _ hop => .inl (execOpaque_quiet hop).toSameReady) n s t (.refl s) h

/-- The events that can change the address, sense or LED, each with what it needs for that. -/
theorem Effect.ready_changes {s t : State} {i : Instr} (h : Effect s i t) (hne : ¬ s.SameReady t) :
    i = .reset (some s.cfg.resetArg) ∨ (∃ a, i = .setaddr (some a) ∧ s.devAddr = 0 ∧ s.cfg.addrInRange a = true) ∨
    (i = .getNext ∧ s.RunsReadyHead) ∨ i = .beginOp ∨ i = .endOp ∨ i = .rst := by
  cases h with
  | quiet ht _ => exact absurd ht.toSameReady hne
  | stored _ _ ht => exact absurd (rxStore_quiet ht).toSameReady hne
  | retried ht => exact absurd (execRetry_quiet ht).1.toSameReady hne
  | walked _ hu =>
    have hruns := (walk_sameReady_or_runs hu).resolve_left fun hsame =>
      hne ⟨hsame.devAddr, hsame.senseReady, hsame.ledReady⟩
    exact .inr (.inr (.inl ⟨rfl, hruns⟩))
  | reset arg =>
    rcases s.resetHead_cases arg with ⟨rfl, -⟩ | ⟨-, he⟩
    · exact .inl rfl
    · exact absurd (by rw [he]; exact ⟨rfl, rfl, rfl⟩) hne
  | setaddr arg =>
    rcases s.setaddrHead_cases arg with ⟨-, he⟩ | ⟨a, rfl, hacc, -⟩ | ⟨a, -, -, he⟩
    · exact absurd (by rw [he]; exact ⟨rfl, rfl, rfl⟩) hne
    · obtain ⟨hfree, hrange⟩ := (Bool.and_eq_true _ _).mp hacc
      exact .inr (.inl ⟨a, rfl, eq_of_beq hfree, hrange⟩)
    · have hsame := (s.append_quiet s.cfg.reportParamIgnored).toSameReady
      exact absurd (by rw [he]; exact ⟨hsame.devAddr, hsame.senseReady, hsame.ledReady⟩) hne
  | reinitialised hi _ _ => exact .inr (.inr (.inr hi))

/-- Settles O48: the effects that leave the address, sense and LED are set aside, and the walk names the head it ran. -/
theorem addressAndReadyAreWrittenOnlyByTheseEvents : Obligations.AddressAndReadyAreWrittenOnlyByTheseEvents := by
  intro s t i h hne
  refine (exec_effect h).ready_changes fun hsame => ?_
  rcases hne with hne | hne | hne
  · exact hne hsame.devAddr
  · exact hne hsame.senseReady
  · exact hne hsame.ledReady

end Sys2Proof.Machine

/-! SUPPORT. The memory family (O43, O49, O50; 20_memory.md R60, R65, R71 to R73): what an event can do to the storage spaces,
said once, from which each statement about the bytes kept is read off. -/

namespace Sys2Proof.Machine

/-! ### What is kept of the buffers -/

/-- The receive buffer and its size stay (R72). -/
structure State.SameFrame (s t : State) : Prop where
  rxBuf : t.rxBuf = s.rxBuf
  rxSize : t.rxSize = s.rxSize

/-- The retained response stays (R73). -/
structure State.SameLatch (s t : State) : Prop where
  retBuf : t.retBuf = s.retBuf
  retLen : t.retLen = s.retLen

/-- Nothing is stored (R65): every buffer stays, with the draw of its unwritten bytes and the two sizes. -/
structure State.SameStorage (s t : State) : Prop extends s.SameFrame t, s.SameLatch t where
  txBuf : t.txBuf = s.txBuf
  draws : t.draws = s.draws

theorem State.SameFrame.trans {s t u : State} (h : s.SameFrame t) (k : t.SameFrame u) : s.SameFrame u :=
  ⟨k.rxBuf.trans h.rxBuf, k.rxSize.trans h.rxSize⟩

/-- An update of other fields stores nothing. -/
theorem State.SameStorage.of_eq {s t : State} (ht : t = { t with
      rxBuf := s.rxBuf, rxSize := s.rxSize, txBuf := s.txBuf, retBuf := s.retBuf, retLen := s.retLen, draws := s.draws }) :
    s.SameStorage t :=
  ⟨⟨by rw [ht], by rw [ht]⟩, ⟨by rw [ht], by rw [ht]⟩, by rw [ht], by rw [ht]⟩

theorem State.SameStorage.refl (s : State) : s.SameStorage s := .of_eq rfl

theorem State.SameStorage.byte {s t : State} (h : s.SameStorage t) (sp : Space) (k : Nat) : t.byte sp k = s.byte sp k :=
  State.byte_of_buffers h.rxBuf h.txBuf h.retBuf h.draws sp k

/-! ### The events that store nothing (R60) -/

theorem execConsume_sameStorage {s t : State} {n : Byte} (h : execConsume n s = .next t) : s.SameStorage t := by
  rcases execConsume_next h with ⟨-, -, -, rfl⟩ | ⟨-, rfl⟩ | rfl <;> exact .of_eq rfl

theorem execUnknownCmd_sameStorage {s t : State} (h : execUnknownCmd s = .next t) : s.SameStorage t := by
  rcases execUnknownCmd_next h with ⟨-, rfl⟩ | rfl <;> exact .of_eq rfl

theorem execRxMark_sameStorage {s t : State} (h : execRxMark s = .next t) : s.SameStorage t := by
  rcases execRxMark_next h with rfl | ⟨-, -, -, rfl⟩ <;> exact .of_eq rfl

theorem execTxEmit_sameStorage {s t : State} (h : execTxEmit s = .next t) : s.SameStorage t := by
  rcases execTxEmit_next h with ⟨-, -, rfl⟩ | ⟨-, rfl⟩ <;> exact .of_eq rfl

theorem State.resetHead_sameStorage (s : State) (arg : Option Byte) : s.SameStorage (s.resetHead arg) := by
  rcases s.resetHead_cases arg with ⟨-, h⟩ | ⟨-, h⟩ <;> rw [h] <;> exact .of_eq rfl

theorem State.SameStorage.noteReady {s t : State} (h : s.SameStorage t) : s.SameStorage (s.noteReady t) :=
  ⟨⟨h.rxBuf, h.rxSize⟩, ⟨h.retBuf, h.retLen⟩, h.txBuf, h.draws⟩

theorem execReset_sameStorage {s t : State} {arg : Option Byte} (h : execReset arg s = .next t) : s.SameStorage t := by
  rw [execReset_next h]
  exact (s.resetHead_sameStorage arg).noteReady

theorem execOpaque_sameStorage {s t : State} {op : Byte} (h : execOpaque op s = .next t) : s.SameStorage t := by
  cases h
  exact .of_eq rfl

/-- Settles O50: each of these events stores nothing, and a byte depends on its buffer and the draw only. -/
theorem nonStoringEventsKeepEveryByte : Obligations.NonStoringEventsKeepEveryByte := by
  intro s t i hi h
  suffices hs : s.SameStorage t from hs.byte
  rcases hi with rfl | ⟨n, rfl⟩ | rfl | rfl | rfl | ⟨arg, rfl⟩ | ⟨op, rfl⟩
  · cases h; exact .of_eq rfl
  · exact execConsume_sameStorage h
  · exact execUnknownCmd_sameStorage h
  · exact execRxMark_sameStorage h
  · exact execTxEmit_sameStorage h
  · exact execReset_sameStorage h
  · exact execOpaque_sameStorage (op := op) h

/-! ### What the storing operations keep -/

theorem State.append_sameFrame (s : State) (v : Byte) : s.SameFrame (s.append v) :=
  ⟨s.append_rxBuf v, s.append_rxSize v⟩

theorem State.append_sameLatch (s : State) (v : Byte) : s.SameLatch (s.append v) :=
  ⟨s.append_retBuf v, s.append_retLen v⟩

/-- SETADDR stores a report in TX only (R172, R174). -/
theorem State.setaddrHead_sameFrame_sameLatch (s : State) (arg : Option Byte) :
    s.SameFrame (s.setaddrHead arg) ∧ s.SameLatch (s.setaddrHead arg) := by
  rcases s.setaddrHead_cases arg with ⟨-, h⟩ | ⟨a, -, -, h⟩ | ⟨a, -, -, h⟩ <;> rw [h]
  · exact ⟨⟨rfl, rfl⟩, ⟨rfl, rfl⟩⟩
  · exact ⟨⟨by simp, by simp⟩, ⟨by simp, by simp⟩⟩
  · exact ⟨⟨by simp, by simp⟩, ⟨by simp, by simp⟩⟩

/-- The end of a cycle writes TX and the latch (R220), never the frame it answers. -/
theorem endCycle_sameFrame {s t : State} (h : andThen (endCycle s) answerNone = .next t) : s.SameFrame t := by
  rcases endCycle_next h with ⟨rfl, -⟩ | ⟨rfl, -, -⟩
  · exact ⟨rfl, rfl⟩
  · exact ⟨s.released.flushed_rxBuf, s.released.flushed_rxSize⟩

theorem execRetry_sameFrame {s t : State} (h : execRetry s = .next t) : s.SameFrame t := by
  rw [execRetry_next h, State.retransmit]
  split <;> exact ⟨rfl, rfl⟩

/-- The walk reads the frame and never writes it (R161). -/
theorem walk_sameFrame {s t : State} {n : Nat} (h : walk n s = .next t) : s.SameFrame t :=
  walk_relation (Pre := fun _ => True) (R := State.SameFrame)
    (fun s _ => (State.SameStorage.refl s).toSameFrame) (fun _ _ _ => State.SameFrame.trans)
    (fun _ _ _ hend => endCycle_sameFrame hend)
    (fun s _ _ _ _ => ⟨(s.resetHead_sameStorage _).toSameFrame, trivial⟩)
    (fun s _ _ _ _ => ⟨(s.setaddrHead_sameFrame_sameLatch _).1, trivial⟩)
    (fun _ _ _ hretry => execRetry_sameFrame hretry)
    (fun _ _ _ _ _ hop => (execOpaque_sameStorage hop).toSameFrame) n s t trivial h

/-- A received byte goes to RX (R124). -/
theorem rxStore_sameLatch {s t : State} {b : Byte} (h : rxStore b s = .next t) : s.SameLatch t := by
  obtain ⟨-, rfl⟩ := rxStore_next h
  rw [rxClassify_frame]
  exact ⟨rfl, rfl⟩

/-! ### What an event can store -/

/-- What an event can do to the buffers: nothing; start or extend a frame in RX, if none is available; append to TX; walk the
frame, if no response is being emitted; run a SETADDR or a RETRY; or re-initialise, of which nothing more is said here. -/
inductive Storing (s : State) : Instr → State → Prop where
  | nothing {i : Instr} {t : State} (ht : s.SameStorage t) : Storing s i t
  | started (ha : s.rxAvailable = false) : Storing s .rxSync (rxStart s)
  | received {i : Instr} {b : Byte} {t : State} (ha : s.rxAvailable = false) (ht : rxStore b s = .next t) : Storing s i t
  | pushed {i : Instr} {t : State} (v : Byte) (ht : (s.append v).SameStorage t) : Storing s i t
  | walked {n : Nat} {u : State} (hidle : s.txEmitting = false) (hu : walk n s = .next u) :
      Storing s .getNext (s.noteReady u)
  | setaddr (arg : Option Byte) : Storing s (.setaddr arg) (s.noteReady (s.setaddrHead arg))
  | retried {t : State} (ht : execRetry s = .next t) : Storing s .retry t
  | reinitialised {i : Instr} {t : State} (hi : i = .beginOp ∨ i = .endOp ∨ i = .rst) : Storing s i t

theorem storing_getNext {s t : State} (h : execGetNext s = .next t) : Storing s .getNext t := by
  rcases execGetNext_next h with
    ⟨-, rfl⟩ | ⟨-, -, rfl⟩ | ⟨-, -, -, rfl⟩ | ⟨-, -, -, -, rfl⟩ | ⟨-, -, -, hidle, u, hu, rfl⟩
  · exact .nothing (.of_eq rfl)
  · exact .nothing (.of_eq rfl)
  · exact .nothing (.of_eq rfl)
  · exact .nothing (.refl _)
  · exact .walked hidle hu

theorem storing_pushReport {s t : State} {c : Byte} (h : execPushReport c s = .next t) : Storing s (.pushReport c) t := by
  rcases execPushReport_next h with ⟨-, -, rfl⟩ | rfl
  · exact .pushed c (.of_eq rfl)
  · exact .nothing (.of_eq rfl)

theorem storing_pushData {s t : State} {b : Byte} (h : execPushData b s = .next t) : Storing s (.pushData b) t := by
  rcases execPushData_next h with ⟨-, -, rfl⟩ | rfl
  · exact .pushed b (.of_eq rfl)
  · exact .nothing (.of_eq rfl)

theorem storing_rxSync {s t : State} (h : execRxSync s = .next t) : Storing s .rxSync t := by
  rcases execRxSync_next h with rfl | ⟨-, ha, rfl | ⟨-, ht⟩⟩
  · exact .nothing (.refl _)
  · exact .started ha
  · exact .received ha ht

theorem storing_rxData {s t : State} {b : Byte} (h : execRxData b s = .next t) : Storing s (.rxData b) t := by
  rcases execRxData_next h with rfl | ⟨-, ha, -, ht⟩
  · exact .nothing (.refl _)
  · exact .received ha ht

/-- Every event and every command head stores one of these. -/
theorem exec_storing {s t : State} {i : Instr} (h : exec i s = .next t) : Storing s i t := by
  cases i with
  | nop => cases h; exact .nothing (.of_eq rfl)
  | getNext => exact storing_getNext h
  | consume n => exact .nothing (execConsume_sameStorage h)
  | pushReport c => exact storing_pushReport h
  | pushData b => exact storing_pushData h
  | beginOp => exact .reinitialised (.inl rfl)
  | endOp => exact .reinitialised (.inr (.inl rfl))
  | unknownCmd => exact .nothing (execUnknownCmd_sameStorage h)
  | rxSync => exact storing_rxSync h
  | rxMark => exact .nothing (execRxMark_sameStorage h)
  | rxData b => exact storing_rxData h
  | txEmit => exact .nothing (execTxEmit_sameStorage h)
  | reset arg => exact .nothing (execReset_sameStorage h)
  | setaddr a => cases h; exact .setaddr a
  | retry => exact .retried h
  | opaqueCmd op => exact .nothing (execOpaque_sameStorage (op := op) h)
  | rst => exact .reinitialised (.inr (.inr rfl))

/-! ### The available frame and the response in flight (R71 to R73) -/

/-- The receiver writes RX only while no frame is available, and no one else writes it (R71, R72). -/
theorem Storing.sameFrame {s t : State} {i : Instr} (h : Storing s i t) (hs : s.rxAvailable = true)
    (hi : ¬ (i = .beginOp ∨ i = .endOp ∨ i = .rst)) : s.SameFrame t := by
  cases h with
  | nothing ht => exact ht.toSameFrame
  | started ha => exact absurd (ha.symm.trans hs) nofun
  | received ha _ => exact absurd (ha.symm.trans hs) nofun
  | pushed v ht => exact (s.append_sameFrame v).trans ht.toSameFrame
  | walked _ hu =>
    have hframe := walk_sameFrame hu
    exact ⟨hframe.rxBuf, hframe.rxSize⟩
  | setaddr arg =>
    have hframe := (s.setaddrHead_sameFrame_sameLatch arg).1
    exact ⟨hframe.rxBuf, hframe.rxSize⟩
  | retried ht => exact execRetry_sameFrame ht
  | reinitialised hre => exact absurd hre hi

/-- While a response is being emitted GET_NEXT does not walk (R165), and only a walk or a RETRY reaches the latch (R73). -/
theorem Storing.sameLatch {s t : State} {i : Instr} (h : Storing s i t) (hs : s.txEmitting = true) (hretry : i ≠ .retry)
    (hi : ¬ (i = .beginOp ∨ i = .endOp ∨ i = .rst)) : s.SameLatch t := by
  cases h with
  | nothing ht => exact ht.toSameLatch
  | started _ => exact ⟨rfl, rfl⟩
  | received _ ht => exact rxStore_sameLatch ht
  | pushed v ht =>
    have happend := s.append_sameLatch v
    exact ⟨ht.retBuf.trans happend.retBuf, ht.retLen.trans happend.retLen⟩
  | walked hidle _ => exact absurd (hidle.symm.trans hs) nofun
  | setaddr arg =>
    have hlatch := (s.setaddrHead_sameFrame_sameLatch arg).2
    exact ⟨hlatch.retBuf, hlatch.retLen⟩
  | retried _ => exact absurd rfl hretry
  | reinitialised hre => exact absurd hre hi

/-- Settles O49: no event but a re-initialising one writes RX behind an available frame. -/
theorem availableFrameIsStable : Obligations.AvailableFrameIsStable := by
  intro s t i _ hs h hbegin hend hrst
  have hframe := (exec_storing h).sameFrame hs fun hre => hre.elim hbegin (·.elim hend hrst)
  exact ⟨hframe.rxBuf, hframe.rxSize⟩

/-- A port never offers a RETRY: it runs inside GET_NEXT only (R90; log entry 8). -/
theorem decodeOffer_ne_retry (c : Config) (o : Offer) : decodeOffer c o ≠ .retry := by
  intro he
  have hhead := decodeOffer_not_head c o
  rw [he] at hhead
  cases hhead

/-- Settles O43: a port event reaches the latch only through GET_NEXT, which does not walk during an emission. -/
theorem responseInFlightIsNotRewritten : Obligations.ResponseInFlightIsNotRewritten := by
  intro s t o h hs hbegin hend hrst
  have hlatch := (exec_storing h).sameLatch hs (decodeOffer_ne_retry s.cfg o)
    fun hre => hre.elim hbegin (·.elim hend hrst)
  exact ⟨hlatch.retBuf, hlatch.retLen⟩

end Sys2Proof.Machine

/-! SUPPORT. The encoding family (30_encoding.md R85, R90, R91, R100 to R104, R106; O1, O2, O3, O4, O54): the fields of a caller
word, the classes of bytes and heads, and the first offer of a list that happens. -/

namespace Sys2Proof

/-! ### The caller word (R102) -/

/-- The operation of R102's table under a code, with `arg` where the table gives it an operand. -/
def CallerOp.withArg : CallerOp → Byte → Instr
  | .nop, _ => .nop
  | .getNext, _ => .getNext
  | .consume, arg => .consume arg
  | .pushReport, arg => .pushReport arg
  | .pushData, arg => .pushData arg
  | .beginOp, _ => .beginOp
  | .endOp, _ => .endOp
  | .unknownCmd, _ => .unknownCmd

/-- All eight codes are assigned: the operation read from a word has the word's code. -/
theorem code_callerOpOf (w : CallerWord) : (callerOpOf w).code = w.extractLsb' 8 3 := by
  unfold callerOpOf
  generalize w.extractLsb' 8 3 = code
  revert code
  decide

@[simp] theorem callerOpOf_callerWord (op : CallerOp) (arg : Byte) : callerOpOf (callerWord op arg) = op := by
  rw [callerOpOf, callerWord, BitVec.extractLsb'_append_eq_left]
  cases op <;> rfl

@[simp] theorem callerArg_callerWord (op : CallerOp) (arg : Byte) : callerArg (callerWord op arg) = arg :=
  BitVec.extractLsb'_append_eq_right

/-- A word is its code and its argument, with no bit over. -/
theorem callerWord_callerOpOf_callerArg (w : CallerWord) : callerWord (callerOpOf w) (callerArg w) = w := by
  calc callerWord (callerOpOf w) (callerArg w)
      = w.extractLsb' 8 3 ++ w.extractLsb' 0 8 := by rw [callerWord, callerArg, code_callerOpOf]
    _ = w.extractLsb' 0 11 := BitVec.extractLsb'_append_extractLsb'_eq_extractLsb' rfl
    _ = w := BitVec.extractLsb'_eq_self

theorem decodeCaller_eq_withArg (w : CallerWord) : decodeCaller w = (callerOpOf w).withArg (callerArg w) := by
  unfold decodeCaller
  cases callerOpOf w <;> rfl

theorem decodeCaller_callerWord (op : CallerOp) (arg : Byte) : decodeCaller (callerWord op arg) = op.withArg arg := by
  rw [decodeCaller_eq_withArg, callerOpOf_callerWord, callerArg_callerWord]

/-- Settles O2: the two fields of a word are read back as they were put together. -/
theorem callerWordsFollowTheTable : Obligations.CallerWordsFollowTheTable := by
  refine ⟨fun w => ⟨callerOpOf w, callerArg w, (callerWord_callerOpOf_callerArg w).symm⟩, fun op arg => ?_,
    ⟨rfl, rfl, rfl, rfl, rfl, rfl, rfl, rfl⟩, fun arg => ?_⟩
  · calc callerWord op arg = (op.code ++ arg).setWidth 11 := (BitVec.setWidth_eq _).symm
      _ = _ := BitVec.setWidth_append_eq_shiftLeft_setWidth_or
  · have hdec (op : CallerOp) := decodeCaller_callerWord op arg
    exact ⟨hdec .nop, hdec .getNext, hdec .consume, hdec .pushReport, hdec .pushData, hdec .beginOp, hdec .endOp,
      hdec .unknownCmd⟩

/-! ### Received bytes (R85) -/

theorem decodeRx_sync (c : Config) : decodeRx c c.sync = .rxSync := by
  simp [decodeRx, rxClassOf]

/-- The escape byte is read as SYNC where the two are equal, so R8 (1) is needed. -/
theorem decodeRx_esc {c : Config} (h : c.sync ≠ c.esc) : decodeRx c c.esc = .rxMark := by
  simp [decodeRx, rxClassOf, h.symm]

theorem decodeRx_data {c : Config} {b : Byte} (hs : b ≠ c.sync) (he : b ≠ c.esc) : decodeRx c b = .rxData b := by
  rw [decodeRx, (rxClassOf_eq_data_iff c b).2 ⟨hs, he⟩]

theorem Instr.wf_rxData_iff (c : Config) (b : Byte) : (Instr.rxData b).wf c = true ↔ b ≠ c.sync ∧ b ≠ c.esc := by
  simp [Instr.wf]

/-! ### Command heads (R90, R91) -/

/-- A head is opaque only if it is none of the core's three opcodes (R90). -/
theorem headClassOf_eq_opaqueCmd_iff (c : Config) (op : Byte) :
    headClassOf c op = .opaqueCmd ↔ op ≠ c.cmdReset ∧ op ≠ c.cmdSetaddr ∧ op ≠ c.cmdRetry := by
  unfold headClassOf
  split_ifs with hreset hsetaddr hretry
  · simp [hreset]
  · simp [hsetaddr]
  · simp [hretry]
  · simp [hreset, hsetaddr, hretry]

theorem Instr.wf_opaqueCmd_iff (c : Config) (op : Byte) :
    (Instr.opaqueCmd op).wf c = true ↔ op ≠ c.cmdReset ∧ op ≠ c.cmdSetaddr ∧ op ≠ c.cmdRetry := by
  simp [Instr.wf, and_assoc]

theorem decodeHead_cmdReset (c : Config) (rest : List Byte) :
    decodeHead c (c.cmdReset :: rest) = .ok (.reset rest.head?) := by
  simp [decodeHead, headClassOf]

theorem decodeHead_cmdSetaddr {c : Config} (h : c.cmdReset ≠ c.cmdSetaddr) (rest : List Byte) :
    decodeHead c (c.cmdSetaddr :: rest) = .ok (.setaddr rest.head?) := by
  simp [decodeHead, headClassOf, h.symm]

theorem decodeHead_cmdRetry {c : Config} (hreset : c.cmdReset ≠ c.cmdRetry) (hsetaddr : c.cmdSetaddr ≠ c.cmdRetry)
    (rest : List Byte) : decodeHead c (c.cmdRetry :: rest) = .ok .retry := by
  simp [decodeHead, headClassOf, hreset.symm, hsetaddr.symm]

theorem decodeHead_opaqueCmd {c : Config} {op : Byte} (h : op ≠ c.cmdReset ∧ op ≠ c.cmdSetaddr ∧ op ≠ c.cmdRetry)
    (rest : List Byte) : decodeHead c (op :: rest) = .ok (.opaqueCmd op) := by
  rw [decodeHead, (headClassOf_eq_opaqueCmd_iff c op).2 h]

/-- The opcode of a decoded OPAQUE is none of the core's. -/
theorem decodeHead_wf {c : Config} {bytes : List Byte} {i : Instr} (h : decodeHead c bytes = .ok i) : i.wf c = true := by
  cases bytes with
  | nil => cases h
  | cons op rest =>
    cases hclass : headClassOf c op with
    | reset | setaddr | retry =>
      rw [decodeHead, hclass] at h
      cases h
      rfl
    | opaqueCmd =>
      rw [decodeHead, hclass] at h
      cases h
      exact (Instr.wf_opaqueCmd_iff c op).2 ((headClassOf_eq_opaqueCmd_iff c op).1 hclass)

/-- Settles O3: the tests for equality are made in an order that does not matter where the values differ (R8 (1), (4)). -/
theorem bytesAndHeadsAreClassifiedByEquality : Obligations.BytesAndHeadsAreClassifiedByEquality := by
  intro c hc
  have hmarkers := (Config.wf_markers hc).1
  obtain ⟨hrs, hrr, hsr⟩ := Config.wf_opcodes hc
  exact ⟨⟨hmarkers, decodeRx_sync c, decodeRx_esc hmarkers, fun _ => decodeRx_data⟩,
    fun rest => ⟨decodeHead_cmdReset c rest, decodeHead_cmdSetaddr hrs rest, decodeHead_cmdRetry hrr hsr rest⟩,
    fun _ rest hreset hsetaddr hretry => decodeHead_opaqueCmd ⟨hreset, hsetaddr, hretry⟩ rest, rfl⟩

/-! ### Decoding and encoding agree -/

/-- R8 (1) and (4) keep the fixed bytes apart; the well-formedness of the instruction keeps its own byte apart from them. -/
theorem decode_encode {c : Config} (hc : c.wf = true) {i : Instr} (hi : i.wf c = true) : decode c (encode c i) = .ok i := by
  have hcaller (op : CallerOp) (arg : Byte) : decode c (.port (.callerOp (callerWord op arg))) = .ok (op.withArg arg) :=
    congrArg Except.ok (decodeCaller_callerWord op arg)
  obtain ⟨hrs, hrr, hsr⟩ := Config.wf_opcodes hc
  cases i with
  | nop => exact hcaller .nop 0
  | getNext => exact hcaller .getNext 0
  | consume n => exact hcaller .consume n
  | pushReport r => exact hcaller .pushReport r
  | pushData b => exact hcaller .pushData b
  | beginOp => exact hcaller .beginOp 0
  | endOp => exact hcaller .endOp 0
  | unknownCmd => exact hcaller .unknownCmd 0
  | rxSync => exact congrArg Except.ok (decodeRx_sync c)
  | rxMark => exact congrArg Except.ok (decodeRx_esc (Config.wf_markers hc).1)
  | rxData b =>
    obtain ⟨hs, he⟩ := (Instr.wf_rxData_iff c b).1 hi
    exact congrArg Except.ok (decodeRx_data hs he)
  | txEmit => rfl
  | reset arg => rw [encode, decode, decodeHead_cmdReset, Option.head?_toList]
  | setaddr a => rw [encode, decode, decodeHead_cmdSetaddr hrs, Option.head?_toList]
  | retry => exact decodeHead_cmdRetry hrr hsr []
  | opaqueCmd op => exact decodeHead_opaqueCmd ((Instr.wf_opaqueCmd_iff c op).1 hi) []
  | rst => rfl

theorem decode_wf {c : Config} {e : Encoded} {i : Instr} (h : decode c e = .ok i) : i.wf c = true := by
  cases e with
  | port o =>
    obtain rfl := (decode_port_eq_ok_iff c o i).1 h
    exact decodeOffer_wf c o
  | head bytes => exact decodeHead_wf h

/-- Settles O1, by the constructors of the instruction and of its encoded form. -/
theorem decodeAndEncodeAgree : Obligations.DecodeAndEncodeAgree :=
  ⟨fun _ _ hc => decode_encode hc, fun _ _ _ => decode_wf⟩

/-- Settles O4: ten closed words at the default configuration, which the decoder computes. -/
theorem writtenOutWordsDecode : Obligations.WrittenOutWordsDecode := by
  unfold Obligations.WrittenOutWordsDecode
  decide

end Sys2Proof

namespace Sys2Proof.Machine

/-! ### The transfers of one clock (R106) -/

theorem State.allWait_nil (s : State) : s.AllWait [] := by
  intro l o r h
  cases l <;> cases h

/-- A first offer that is not held happens, and the others stay. -/
theorem step_of_first_free {s : State} {o : Offer} {rest : List Offer} (hwf : s.cfg.wf = true)
    (ho : s.offers = o :: rest) (hh : held (decodeOffer s.cfg o) s = false) :
    step s = exec (decodeOffer s.cfg o) { s with offers := rest } :=
  step_of_fetch_some hwf (fetch_free (waiting := []) ho s.allWait_nil nofun hh)

theorem held_txEmit {s : State} (h : s.txEmitting = true) : held .txEmit s = false := by
  rw [held, h, Bool.not_true]

/-- Settles O54: each transfer stands first in the list of a clock that offers none of those before it. -/
theorem transfersOfOneClockAreSerialised : Obligations.TransfersOfOneClockAreSerialised := by
  intro s w b rest hwf
  refine ⟨rfl, fun ho => ?rst, fun ho hh => ?caller, fun ho hh => ?byte, fun ho he => ?emit⟩
  case rst => exact step_of_first_free hwf ho rfl
  case caller => exact step_of_first_free hwf ho hh
  case byte => exact step_of_first_free hwf ho hh
  case emit => exact step_of_first_free hwf ho (held_txEmit he)

end Sys2Proof.Machine

/-! SUPPORT. The receiver family (40_receiver.md R120 to R135; O5 to O7, O9 to O15, O53): what a received byte does outside a
frame, mid-frame, as LEN and as CHECKSUM, and from it what the escaped image of a whole frame does. -/

namespace Sys2Proof.Machine

/-! ### The checksum and the wire image (R132, R225) -/

/-- No carry is kept: the sum is exact mod 256. -/
theorem sum8_toNat (l : List Byte) : (sum8 l).toNat = (l.map BitVec.toNat).sum % 256 := by
  induction l with
  | nil => rfl
  | cons b l ih => simp only [sum8, BitVec.toNat_add, ih, List.map_cons, List.sum_cons, Nat.add_mod_mod]

/-- A changed byte changes the sum (R134). -/
theorem sum8_set_ne {l : List Byte} {k : Nat} {v : Byte} (hk : k < l.length) (hv : l[k]? ≠ some v) :
    sum8 (l.set k v) ≠ sum8 l := by
  induction l generalizing k with
  | nil => cases hk
  | cons b l ih =>
    cases k with
    | zero =>
      intro h
      have hb : v = b := (BitVec.add_left_inj (sum8 l)).1 h
      exact hv (by simp [hb])
    | succ k =>
      intro h
      exact ih (Nat.lt_of_succ_lt_succ hk) (by simpa using hv) ((BitVec.add_right_inj b).1 h)

theorem escapeAll_eq_flatMap (c : Config) (l : List Byte) : escapeAll c l = l.flatMap (escape c) := by
  induction l with
  | nil => rfl
  | cons v l ih => rw [escapeAll, ih, List.flatMap_cons]

/-- A marker takes two bytes on the wire, any other byte one (R86). -/
theorem escape_length_eq (c : Config) (v : Byte) :
    (escape c v).length = if v == c.sync || v == c.esc then 2 else 1 := by
  simp only [escape, Bool.or_eq_true, beq_iff_eq]
  split <;> rfl

theorem escapeAll_length_eq (c : Config) (l : List Byte) :
    (escapeAll c l).length = l.length + (l.filter fun v => v == c.sync || v == c.esc).length := by
  induction l with
  | nil => rfl
  | cons v l ih =>
    rw [escapeAll, List.length_append, escape_length_eq, ih, List.filter_cons, List.length_cons]
    split
    · rw [List.length_cons]; omega
    · omega

/-- Settles O5: a sum taken byte by byte, and an image of at most two bytes for each of the frame's. -/
theorem checksumAndWireImageAreTheStatedOnes : Obligations.ChecksumAndWireImageAreTheStatedOnes := by
  refine ⟨⟨sum8_toNat, fun a => by simp [sum8]⟩, fun c image hc => ⟨?bytes, ?length, fun hmin hmax => ?range⟩⟩
  case bytes => rw [wireImage, escapeAll_eq_flatMap]; rfl
  case length => rw [wireImage, List.length_cons, escapeAll_length_eq]; omega
  case range =>
    obtain ⟨-, -, -, hret⟩ := Config.wf_capacities hc
    have hlen := wireImage_length c image
    omega

/-! ### Bytes that are held, dropped or ignored (R121, R125) -/

theorem rxGate_held {s : State} (f : State → Result) (h : s.rxHeld = true) : rxGate s f = .next s := by
  rw [rxGate, if_pos h]

theorem rxGate_disabled {s : State} (f : State → Result) (h : s.enabled = false) : rxGate s f = .next s := by
  simp [rxGate, State.rxHeld, h]

/-- Every received byte passes the gate first. -/
theorem exec_decodeRx_eq_rxGate (s : State) (b : Byte) : ∃ f, exec (decodeRx s.cfg b) s = rxGate s f := by
  unfold decodeRx
  cases rxClassOf s.cfg b with
  | sync => exact ⟨_, show execRxSync s = rxGate s _ from rfl⟩
  | mark => exact ⟨_, show execRxMark s = rxGate s _ from rfl⟩
  | data => exact ⟨_, show execRxData b s = rxGate s _ from rfl⟩

theorem held_decodeRx (c : Config) (b : Byte) (s : State) : held (decodeRx c b) s = s.rxHeld := by
  unfold decodeRx
  cases rxClassOf c b with
  | sync | mark | data => rfl

/-- The receive port is ready exactly while no frame is pending (R43). -/
theorem State.rxInReady_eq_not_cmdPending (s : State) : s.rxInReady = !s.cmdPending := by
  rw [State.rxInReady, State.cmdPending, Bool.not_and]

/-- Settles O13: the gate for the bytes, and the events that release a pending frame for the hold. -/
theorem bytesAreHeldWhileAFrameIsAvailable : Obligations.BytesAreHeldWhileAFrameIsAvailable := by
  intro s b
  obtain ⟨f, hf⟩ := exec_decodeRx_eq_rxGate s b
  rw [held_decodeRx, hf]
  refine ⟨fun he ha => ?available, fun he => ?disabled, fun t i hs h ht => ?lifted⟩
  case available =>
    have hheld : s.rxHeld = true := by rw [State.rxHeld, he, ha]; rfl
    exact ⟨rxGate_held f hheld, hheld, by rw [State.rxInReady, he, ha]; rfl⟩
  case disabled =>
    exact ⟨rxGate_disabled f he, by rw [State.rxHeld, he]; rfl, by rw [State.rxInReady, he]; rfl⟩
  case lifted =>
    rw [State.rxInReady_eq_not_cmdPending] at hs ht
    exact (exec_effect h).cmdPending_falls (by simpa using hs) (by simpa using ht)

/-- Behind the gate an ignored byte changes nothing, and a held or dropped one does not get there. -/
theorem rxGate_of_ignored {s : State} {f : State → Result} (h : f s = .next s) : rxGate s f = .next s := by
  rcases rxGate_cases s f with hg | ⟨-, -, hg⟩
  · exact hg
  · exact hg.trans h

theorem exec_rxMark_of_not_receiving {s : State} (h : s.rxReceiving = false) : exec .rxMark s = .next s :=
  show execRxMark s = _ from rxGate_of_ignored (if_neg (by simp [h]))

theorem exec_rxData_of_not_receiving {s : State} (b : Byte) (h : s.rxReceiving = false) :
    exec (.rxData b) s = .next s :=
  show execRxData b s = _ from rxGate_of_ignored (if_neg (by simp [h]))

/-- Settles O12: such a byte is an escape marker or data. -/
theorem otherBytesAreIgnoredOutsideAFrame : Obligations.OtherBytesAreIgnoredOutsideAFrame := by
  intro s b hr hb
  by_cases hesc : b = s.cfg.esc
  · rw [hesc, decodeRx_esc (hesc ▸ hb.symm)]
    exact exec_rxMark_of_not_receiving hr
  · rw [decodeRx_data hb hesc]
    exact exec_rxData_of_not_receiving b hr

/-! ### Bytes the receiver takes (R122 to R124, R131) -/

section Open

variable {s : State} (he : s.enabled = true) (ha : s.rxAvailable = false)
include he ha

theorem exec_rxSync_open : exec .rxSync s =
    if !s.rxReceiving || s.cfg.syncInFrame == .restart then .next (rxStart s) else rxStore s.cfg.sync s :=
  show execRxSync s = _ from rxGate_open he ha

theorem exec_rxMark_open : exec .rxMark s =
    if s.rxReceiving then .next { s with rxEscaping := true } else .next s :=
  show execRxMark s = _ from rxGate_open he ha

theorem exec_rxData_open (b : Byte) : exec (.rxData b) s = if s.rxReceiving then rxStore b s else .next s :=
  show execRxData b s = _ from rxGate_open he ha

theorem exec_rxSync_starts (h : s.rxReceiving = false ∨ s.cfg.syncInFrame = .restart) :
    exec .rxSync s = .next (rxStart s) :=
  (exec_rxSync_open he ha).trans (if_pos (by rcases h with h | h <;> simp [h]))

theorem exec_rxMark_midFrame (hr : s.rxReceiving = true) : exec .rxMark s = .next { s with rxEscaping := true } :=
  (exec_rxMark_open he ha).trans (if_pos hr)

/-- RX_DATA mid-frame, and RX_SYNC in STORE mode, store their byte (R124, R131). -/
theorem exec_storesByte {i : Instr} {b : Byte} (hi : s.StoresByte i b) (hr : s.rxReceiving = true) :
    exec i s = rxStore b s := by
  rcases hi with rfl | ⟨rfl, rfl, hstore⟩
  · exact (exec_rxData_open he ha b).trans (if_pos hr)
  · exact (exec_rxSync_open he ha).trans (if_neg (by simp [hr, hstore]))

end Open

theorem rxStore_eq {s : State} (b : Byte) (hi : s.rxSize < s.cfg.rxCap) :
    rxStore b s = .next (rxClassify (unescaped s.rxEscaping b) s.rxSize (rxPut b s)) :=
  if_pos ((s.hasIndex_iff .rx s.rxSize).2 hi)

/-- Settles O9: the two branches of RX_SYNC. -/
theorem syncStartsAFrameOrIsStored : Obligations.SyncStartsAFrameOrIsStored := by
  intro s he ha
  refine ⟨exec_rxSync_starts he ha, fun hr hstore hi => ?_⟩
  obtain ⟨t, ht, -, hbyte, hsame, hframe⟩ := rxStore_spec s s.cfg.sync hi
  refine ⟨t, (exec_storesByte he ha (.inr ⟨rfl, rfl, hstore⟩) hr).trans ht, hbyte, hsame, ?_⟩
  rw [hframe]

/-- Settles O10: the second marker sets a flag that is set, so the byte behind it is stored as after one. -/
theorem markSetsTheEscapeFlag : Obligations.MarkSetsTheEscapeFlag := by
  intro s he ha
  refine ⟨exec_rxMark_midFrame he ha, exec_rxMark_of_not_receiving, fun hr hi x => ?_⟩
  have hmark : exec .rxMark s = .next { s with rxEscaping := true } := exec_rxMark_midFrame he ha hr
  have hagain : exec .rxMark { s with rxEscaping := true } = .next { s with rxEscaping := true } :=
    exec_rxMark_midFrame (s := { s with rxEscaping := true }) he ha hr
  have hdata : exec (.rxData x) { s with rxEscaping := true } = rxStore x { s with rxEscaping := true } :=
    exec_storesByte (s := { s with rxEscaping := true }) he ha (.inl rfl) hr
  obtain ⟨t, ht, -, hbyte, -, hframe⟩ := rxStore_spec { s with rxEscaping := true } x hi
  refine ⟨t, ?_, hbyte, by rw [hframe]⟩
  simp only [runEvents, hmark, hagain, hdata, ht, andThen_next]

/-- Settles O11: the store's frame, and its classification where the byte is neither LEN nor CHECKSUM. -/
theorem dataByteIsStored : Obligations.DataByteIsStored := by
  intro s i b hib he ha hr hi
  obtain ⟨t, ht, hclass, hbyte, hsame, hframe⟩ := rxStore_spec s b hi
  refine ⟨t, (exec_storesByte he ha hib hr).trans ht, fun h1 hlast => ?_, hbyte, hsame, ?_⟩
  · have hlen : (rxPut b s).rxLen = s.rxLen := by rw [rxPut_rxLen, if_neg h1]
    rw [hclass, rxClassify_inside _ h1 (.inr (by rwa [hlen]))]
    exact ⟨hr, ha, rfl, rfl, rfl⟩
  · rw [hframe]

/-! ### LEN (R126, R127) -/

theorem State.accepts_iff (s : State) (a : Byte) :
    s.accepts a = true ↔ a = s.cfg.broadcast ∨ (s.devAddr ≠ 0 ∧ a = s.devAddr) := by
  simp only [State.accepts, Bool.or_eq_true, Bool.and_eq_true, beq_iff_eq, bne_iff_ne]

/-- What the byte at index 1 does. -/
theorem rxClassify_len (v : Byte) (s : State) : rxClassify v 1 s = rxLenStored v s := if_pos rfl

theorem rxLenStored_zero (s : State) :
    rxLenStored 0 s = { s with rxReceiving := false }.raise (.lenZero (s.byte .rx 0)) := by
  rw [rxLenStored, if_pos rfl]

theorem rxLenStored_tooLong {v : Byte} {s : State} (h0 : v ≠ 0) (hlong : s.cfg.rxCap < v.toNat + 2) :
    rxLenStored v s =
      { s with rxReceiving := false, rxOvfPending := s.rxOvfPending || s.accepts (s.byte .rx 0) }.raise
        (.rxOverflow (s.byte .rx 0) v.toNat) :=
  (if_neg h0).trans (if_pos hlong)

theorem rxLenStored_fits {v : Byte} {s : State} (h0 : v ≠ 0) (hfits : ¬ s.cfg.rxCap < v.toNat + 2) :
    rxLenStored v s = s :=
  (if_neg h0).trans (if_neg hfits)

/-- LEN alone makes no frame available. -/
theorem rxLenStored_rxAvailable (v : Byte) (s : State) : (rxLenStored v s).rxAvailable = s.rxAvailable := by
  unfold rxLenStored
  dsimp only
  split
  · rfl
  · split <;> rfl

/-- Settles O14: the byte at index 1 is classified as LEN, in three branches. -/
theorem lenByteIsChecked : Obligations.LenByteIsChecked := by
  intro s i b hib hwf he ha hr h1 v a
  have hcap := (Config.wf_capacities hwf).1
  obtain ⟨t, ht, hclass, hbyte, hsame, hframe⟩ := rxStore_spec s b (by omega)
  rw [h1, rxClassify_len] at hclass
  rw [h1] at hbyte hsame hframe
  have haddr : (rxPut b s).byte .rx 0 = a := rxPut_byte_other b s (.inr (by omega))
  refine ⟨t, (exec_storesByte he ha hib hr).trans ht, hbyte, hsame, by rw [hframe],
    by rw [hclass, rxLenStored_rxAvailable]; exact ha, ?_⟩
  change t = rxLenStored v (rxPut b s) at hclass
  split
  case isTrue h0 =>
    rw [hclass, h0, rxLenStored_zero, haddr]
    exact ⟨rfl, rfl, rfl⟩
  case isFalse h0 =>
    split
    case isTrue hlong =>
      rw [hclass, rxLenStored_tooLong (s := rxPut b s) h0 hlong, haddr, ← s.accepts_iff a, ← Bool.or_eq_true]
      exact ⟨rfl, rfl, Iff.rfl⟩
    case isFalse hfits =>
      rw [hclass, rxLenStored_fits (s := rxPut b s) h0 hfits]
      exact ⟨hr, rfl, rfl⟩

/-! ### CHECKSUM (R128 to R130) -/

/-- The checks of a complete frame whose checksum `v` is at index `i`: its sum, then its address (R129, R130). -/
def State.frameChecks (s : State) (v : Byte) (i : Nat) : Bool :=
  sum8 (s.bytes .rx 0 i) == v && s.accepts (s.byte .rx 0)

theorem State.frameChecks_iff (s : State) (v : Byte) (i : Nat) :
    s.frameChecks v i = true ↔ sum8 (s.bytes .rx 0 i) = v ∧ s.accepts (s.byte .rx 0) = true := by
  rw [State.frameChecks, Bool.and_eq_true, beq_iff_eq]

theorem rxCompleted_sumMismatch {v : Byte} {i : Nat} {s : State} (h : sum8 (s.bytes .rx 0 i) ≠ v) :
    rxCompleted v i s = { s with rxReceiving := false }.raise (.sumMismatch (sum8 (s.bytes .rx 0 i)) v) :=
  if_pos h

theorem rxCompleted_addrMismatch {v : Byte} {i : Nat} {s : State} (h : sum8 (s.bytes .rx 0 i) = v)
    (ha : s.accepts (s.byte .rx 0) = false) :
    rxCompleted v i s = { s with rxReceiving := false }.raise (.addrMismatch (s.byte .rx 0)) :=
  (if_neg (not_not.2 h)).trans (if_neg (by simp [ha]))

theorem rxCompleted_accepted {v : Byte} {i : Nat} {s : State} (h : sum8 (s.bytes .rx 0 i) = v)
    (ha : s.accepts (s.byte .rx 0) = true) :
    rxCompleted v i s = { s with rxReceiving := false, rxAvailable := true, rxReadPtr := 2 }.raise
      (.frameAccepted (s.byte .rx 0) s.rxLen) :=
  (if_neg (not_not.2 h)).trans (if_pos ha)

/-- Completion ends the frame; it makes it available, with the cursor at DATA, exactly if the checks hold; and it changes
nothing else but the trace. -/
theorem rxCompleted_frame (v : Byte) (i : Nat) (s : State) : ∃ trace, rxCompleted v i s = { s with
    rxReceiving := false
    rxAvailable := s.rxAvailable || s.frameChecks v i
    rxReadPtr := if s.frameChecks v i then 2 else s.rxReadPtr
    trace := trace } := by
  by_cases hsum : sum8 (s.bytes .rx 0 i) = v
  · cases hacc : s.accepts (s.byte .rx 0) with
    | true =>
      rw [rxCompleted_accepted hsum hacc, (s.frameChecks_iff v i).2 ⟨hsum, hacc⟩, Bool.or_true]
      exact ⟨_, rfl⟩
    | false =>
      have hno : s.frameChecks v i = false := by simp [State.frameChecks, hacc]
      rw [rxCompleted_addrMismatch hsum hacc, hno, Bool.or_false]
      exact ⟨_, rfl⟩
  · have hno : s.frameChecks v i = false := by simp [State.frameChecks, hsum]
    rw [rxCompleted_sumMismatch hsum, hno, Bool.or_false]
    exact ⟨_, rfl⟩

/-- A store leaves the bytes before it. -/
theorem rxPut_bytes_before (b : Byte) (s : State) : (rxPut b s).bytes .rx 0 s.rxSize = s.bytes .rx 0 s.rxSize :=
  State.bytes_congr fun _ hk => rxPut_byte_other b s (.inr (by omega))

/-- Settles O15: the byte that reaches the declared end completes the frame. -/
theorem completeFrameIsCheckedAndFiltered : Obligations.CompleteFrameIsCheckedAndFiltered := by
  intro s i b hib he ha hr h2 hi hlast v a
  have hlen : (rxPut b s).rxLen = s.rxLen := by rw [rxPut_rxLen, if_neg (by omega)]
  have haddr : (rxPut b s).byte .rx 0 = a := rxPut_byte_other b s (.inr (by omega))
  have hchecks : (rxPut b s).frameChecks v s.rxSize = true ↔
      sum8 (s.bytes .rx 0 s.rxSize) = v ∧ (a = s.cfg.broadcast ∨ (s.devAddr ≠ 0 ∧ a = s.devAddr)) := by
    rw [State.frameChecks_iff, rxPut_bytes_before, haddr, ← s.accepts_iff a]
    exact Iff.rfl
  have hstore : exec i s = .next (rxCompleted v s.rxSize (rxPut b s)) := by
    rw [exec_storesByte he ha hib hr, rxStore_eq b hi, rxClassify_last _ h2 (by rw [hlen]; exact hlast)]
    rfl
  obtain ⟨trace, ht⟩ := rxCompleted_frame v s.rxSize (rxPut b s)
  have hput : (rxPut b s).rxAvailable = false := ha
  rw [hput, Bool.false_or] at ht
  exact ⟨_, hstore.trans (congrArg _ ht), rfl, rfl, rfl, hchecks, rfl, rfl, rfl, rfl⟩

/-! ### A frame in progress, as the list of its bytes -/

/-- Mid-frame, after the bytes `l` have been stored. -/
def State.withStored (s : State) (l : List Byte) : State :=
  { s with
    rxBuf := s.rxBuf.writeList 0 l
    rxSize := l.length
    rxReadPtr := 0
    rxEscaping := false
    rxReceiving := true }

theorem rxStart_eq_withStored (s : State) : rxStart s = s.withStored [] := rfl

theorem State.withStored_bytes (s : State) (l r : List Byte) : (s.withStored (l ++ r)).bytes .rx 0 l.length = l := by
  apply State.bytes_eq_of
  intro k hk
  have hread := Memory.read_writeList_same (l ++ r) s.rxBuf (i := 0) (k := k) (by rw [List.length_append]; omega)
  rw [State.byte, State.mem, State.withStored, hread, List.getElem_append_left hk]

theorem State.withStored_byte_zero (s : State) (a : Byte) (l : List Byte) : (s.withStored (a :: l)).byte .rx 0 = a :=
  (List.cons.inj (s.withStored_bytes [a] l)).1

theorem State.withStored_rxLen (s : State) (a len : Byte) (l : List Byte) :
    (s.withStored (a :: len :: l)).rxLen = len.toNat :=
  congrArg BitVec.toNat (List.cons.inj (List.cons.inj (s.withStored_bytes [a, len] l)).2).1

theorem Memory.writeList_concat (l : List Byte) (v : Byte) : ∀ (m : Memory) (i : Nat),
    m.writeList i (l ++ [v]) = (m.writeList i l).write (i + l.length) v := by
  induction l with
  | nil => intro m i; rfl
  | cons w l ih =>
    intro m i
    rw [List.cons_append, Memory.writeList, ih, Memory.writeList, List.length_cons, Nat.add_right_comm, Nat.add_assoc]

/-- One more byte is stored behind the others, whether an escape marker came before it or not (R124). -/
theorem rxPut_withStored (s : State) (l : List Byte) (escaping : Bool) (b : Byte) :
    rxPut b { s.withStored l with rxEscaping := escaping } = s.withStored (l ++ [unescaped escaping b]) := by
  simp [rxPut, State.store, State.withStored, Memory.writeList_concat]

/-! ### Receiving an escaped image (R135) -/

theorem rxEvents_append (c : Config) (l r : List Byte) : rxEvents c (l ++ r) = rxEvents c l ++ rxEvents c r :=
  List.map_append

section Receive

variable {s : State} (hwf : s.cfg.wf = true) (he : s.enabled = true) (ha : s.rxAvailable = false)
include hwf he ha

/-- R135: the image of a byte contains no SYNC, and the byte stored for it is the byte itself. -/
theorem runEvents_escape (l : List Byte) (v : Byte) (hl : l.length < s.cfg.rxCap) :
    runEvents (rxEvents s.cfg (escape s.cfg v)) (s.withStored l) =
      .next (rxClassify v l.length (s.withStored (l ++ [v]))) := by
  obtain ⟨hne, hss, hse, hes, hee⟩ := Config.wf_markers hwf
  have hdata (escaping : Bool) (b : Byte) : exec (.rxData b) { s.withStored l with rxEscaping := escaping } =
      .next (rxClassify (unescaped escaping b) l.length (s.withStored (l ++ [unescaped escaping b]))) := by
    rw [exec_storesByte (s := { s.withStored l with rxEscaping := escaping }) he ha (.inl rfl) rfl, rxStore_eq b hl,
      rxPut_withStored]
    rfl
  by_cases hv : v = s.cfg.sync ∨ v = s.cfg.esc
  · have hmark : exec .rxMark (s.withStored l) = .next { s.withStored l with rxEscaping := true } :=
      exec_rxMark_midFrame (s := s.withStored l) he ha rfl
    have hdec : decodeRx s.cfg (v - 1) = .rxData (v - 1) := by
      rcases hv with rfl | rfl
      · exact decodeRx_data hss hse
      · exact decodeRx_data hes hee
    have hback : unescaped true (v - 1) = v := BitVec.sub_add_cancel v 1
    rw [escape, if_pos hv]
    simp only [rxEvents, List.map_cons, List.map_nil, runEvents, decodeRx_esc hne, hdec, hmark, andThen_next,
      hdata true, hback]
  · have hdec : decodeRx s.cfg v = .rxData v := decodeRx_data (fun h => hv (.inl h)) (fun h => hv (.inr h))
    rw [escape, if_neg hv]
    simp only [rxEvents, List.map_cons, List.map_nil, runEvents, hdec]
    rw [show exec (.rxData v) (s.withStored l) = _ from hdata false v]
    rfl

/-- ADDR and LEN of a frame that fits are stored, and the frame goes on (R124, R127). -/
theorem runEvents_addr_len {a len : Byte} (h0 : len ≠ 0) (hfits : len.toNat + 2 ≤ s.cfg.rxCap) :
    runEvents (rxEvents s.cfg (escape s.cfg a ++ escape s.cfg len)) (s.withStored []) =
      .next (s.withStored [a, len]) := by
  have haddr : rxClassify a 0 (s.withStored [a]) = s.withStored [a] :=
    rxClassify_inside a (by decide) (.inl (by decide))
  have hlen : rxClassify len 1 (s.withStored [a, len]) = s.withStored [a, len] :=
    (rxClassify_len len _).trans (rxLenStored_fits h0 (Nat.not_lt.2 hfits))
  rw [rxEvents_append, runEvents_append, runEvents_escape hwf he ha [] a (show 0 < _ by omega)]
  simp only [List.nil_append, List.length_nil, haddr, andThen_next]
  rw [runEvents_escape hwf he ha [a] len (show 1 < _ by omega)]
  exact congrArg _ hlen

/-- DATA bytes short of the declared end are stored, and the frame goes on (R124). -/
theorem runEvents_data {a len : Byte} (hfits : len.toNat + 2 ≤ s.cfg.rxCap) (data : List Byte) :
    ∀ before : List Byte, before.length + data.length < len.toNat →
      runEvents (rxEvents s.cfg (escapeAll s.cfg data)) (s.withStored (a :: len :: before)) =
        .next (s.withStored (a :: len :: (before ++ data))) := by
  induction data with
  | nil => intro before _; rw [List.append_nil]; rfl
  | cons v data ih =>
    intro before hshort
    rw [List.length_cons] at hshort
    have hinside : rxClassify v (before.length + 2) (s.withStored (a :: len :: (before ++ [v]))) =
        s.withStored (a :: len :: (before ++ [v])) :=
      rxClassify_inside v (by omega) (.inr (by rw [State.withStored_rxLen]; omega))
    rw [escapeAll, rxEvents_append, runEvents_append,
      runEvents_escape hwf he ha (a :: len :: before) v (show before.length + 2 < _ by omega)]
    simp only [List.cons_append, List.length_cons, hinside, andThen_next]
    rw [ih (before ++ [v]) (by simp; omega), List.append_assoc]
    rfl

/-- A whole frame that fits is stored byte by byte, and its last byte completes it, in both modes of SYNC (R135). -/
theorem runEvents_wireImage (hr : s.rxReceiving = false) {a len : Byte} {data : List Byte} (ck : Byte)
    (hlen : len.toNat = data.length + 1) (hfits : data.length + 3 ≤ s.cfg.rxCap) :
    runEvents (rxEvents s.cfg (wireImage s.cfg (a :: len :: data ++ [ck]))) s =
      .next (rxCompleted ck (data.length + 2) (s.withStored (a :: len :: data ++ [ck]))) := by
  have h0 : len ≠ 0 := fun h => by rw [h] at hlen; exact absurd hlen nofun
  have hsplit : wireImage s.cfg (a :: len :: data ++ [ck]) =
      [s.cfg.sync] ++ ((escape s.cfg a ++ escape s.cfg len) ++ (escapeAll s.cfg data ++ escape s.cfg ck)) := by
    simp [wireImage, escapeAll, escapeAll_append]
  have hstart : runEvents (rxEvents s.cfg [s.cfg.sync]) s = .next (s.withStored []) := by
    simp only [rxEvents, List.map_cons, List.map_nil, runEvents, decodeRx_sync, exec_rxSync_starts he ha (.inl hr),
      andThen_next, rxStart_eq_withStored]
  have hlast : rxClassify ck (data.length + 2) (s.withStored (a :: len :: data ++ [ck])) =
      rxCompleted ck (data.length + 2) (s.withStored (a :: len :: data ++ [ck])) :=
    rxClassify_last ck (by omega) (by rw [List.cons_append, List.cons_append, State.withStored_rxLen]; omega)
  rw [hsplit, rxEvents_append, runEvents_append, hstart, andThen_next, rxEvents_append, runEvents_append,
    runEvents_addr_len hwf he ha h0 (by omega), andThen_next, rxEvents_append, runEvents_append,
    runEvents_data hwf he ha (by omega) data [] (by simp; omega), andThen_next, List.nil_append,
    runEvents_escape hwf he ha (a :: len :: data) ck (show data.length + 2 < _ by omega)]
  exact congrArg _ hlast

end Receive

/-- LEN of a frame that fits a well-formed buffer is not truncated (R8 (5), R82). -/
theorem toNat_len_of_fits {c : Config} (hwf : c.wf = true) {n : Nat} (hfits : n + 3 ≤ c.rxCap) :
    (BitVec.ofNat 8 (n + 1)).toNat = n + 1 := by
  have hcap := (Config.wf_capacities hwf).1
  rw [BitVec.toNat_ofNat]
  omega

/-- Settles O6: the run ends in the completion of the state that has stored exactly the image. -/
theorem receiverStoresTheEncodedImage : Obligations.ReceiverStoresTheEncodedImage := by
  intro s a data ck hwf he ha hr hfits image
  have hrun : runEvents (rxEvents s.cfg (wireImage s.cfg image)) s =
      .next (rxCompleted ck (data.length + 2) (s.withStored image)) :=
    runEvents_wireImage hwf he ha hr ck (toNat_len_of_fits hwf hfits) hfits
  have hsum : (s.withStored image).bytes .rx 0 (data.length + 2) = a :: BitVec.ofNat 8 (data.length + 1) :: data :=
    s.withStored_bytes (a :: BitVec.ofNat 8 (data.length + 1) :: data) [ck]
  have haddr : (s.withStored image).byte .rx 0 = a := s.withStored_byte_zero a _
  have hstored : (s.withStored image).bytes .rx 0 image.length = image := by
    simpa using s.withStored_bytes image []
  obtain ⟨trace, ht⟩ := rxCompleted_frame ck (data.length + 2) (s.withStored image)
  have hidle : (s.withStored image).rxAvailable = false := ha
  rw [hidle, Bool.false_or, State.frameChecks, hsum, haddr] at ht
  refine ⟨_, hrun.trans (congrArg _ ht), ?_, rfl, rfl, rfl, fun _ => rfl, fun _ => rfl⟩
  refine (State.bytes_of_mem (s := s.withStored image) ?_ ?_ 0 _).trans hstored <;> rfl

/-! ### One corrupted byte (R134) -/

/-- A frame with one byte other than LEN changed has the same length field and DATA length, and its checksum is wrong. -/
theorem frameImage_set (a : Byte) (data : List Byte) {k : Nat} {v : Byte} (hk : k < data.length + 3) (h1 : k ≠ 1)
    (hv : (frameImage a data)[k]? ≠ some v) :
    ∃ a' data' ck', (frameImage a data).set k v = a' :: BitVec.ofNat 8 (data.length + 1) :: data' ++ [ck'] ∧
      data'.length = data.length ∧ sum8 (a' :: BitVec.ofNat 8 (data.length + 1) :: data') ≠ ck' := by
  obtain ⟨head, hhead⟩ : ∃ head, head = a :: BitVec.ofNat 8 (data.length + 1) :: data := ⟨_, rfl⟩
  have hlen : head.length = data.length + 2 := by rw [hhead]; rfl
  have himage : frameImage a data = head ++ [sum8 head] := by rw [hhead]; rfl
  rw [himage] at hv ⊢
  by_cases hlast : k = head.length
  · refine ⟨a, data, v, ?_, rfl, ?_⟩
    · rw [← hhead, hlast, List.set_append_right _ _ (Nat.le_refl _), Nat.sub_self]
      rfl
    · rw [← hhead]
      intro hsum
      exact hv (by rw [hlast, List.getElem?_concat_length, hsum])
  · have hin : k < head.length := by omega
    have hne : sum8 (head.set k v) ≠ sum8 head :=
      sum8_set_ne hin (by rwa [List.getElem?_append_left hin] at hv)
    rw [List.set_append_left _ _ hin]
    match k with
    | 0 => exact ⟨v, data, sum8 head, by rw [hhead]; rfl, rfl, by rw [hhead] at hne ⊢; exact hne⟩
    | 1 => exact absurd rfl h1
    | j + 2 =>
      exact ⟨a, data.set j v, sum8 head, by rw [hhead]; rfl, List.length_set, by rw [hhead] at hne ⊢; exact hne⟩

/-- Settles O7: the corrupted frame is received to its end, where the sum is wrong. -/
theorem oneCorruptedByteIsDiscardedSilently : Obligations.OneCorruptedByteIsDiscardedSilently := by
  intro s a data k v hwf he ha hr hfits hk h1 hv
  obtain ⟨a', data', ck', himage, hlen, hsum⟩ := frameImage_set a data hk h1 hv
  rw [himage]
  rw [← hlen] at hfits hsum ⊢
  have hrun := runEvents_wireImage hwf he ha hr (a := a') ck' (toNat_len_of_fits hwf hfits) hfits
  have hbytes := s.withStored_bytes (a' :: BitVec.ofNat 8 (data'.length + 1) :: data') [ck']
  rw [← hbytes] at hsum
  exact ⟨_, _, _, hrun.trans (congrArg _ (rxCompleted_sumMismatch hsum)), ha, rfl, rfl, rfl, rfl, rfl, hsum⟩

/-! ### Offers that wait (R10, R101, R121) -/

/-- R10: where every offer waits, no event happens. -/
theorem step_of_allWait {s : State} (hwf : s.cfg.wf = true) (hw : s.AllWait s.offers) : step s = .next s := by
  have hf : fetch s = none := by
    rw [fetch, pickOffer_waiting s s.offers [] ((s.allWaitBehind_nil s.offers).2 hw), Option.map_none]
  rw [step, if_pos hwf, hf]

/-- Later offers of its own agent wait behind a held one (R101). -/
theorem State.allWait_of_same_agent {s : State} {o : Offer} {same : List Offer}
    (hh : held (decodeOffer s.cfg o) s = true) (hsame : ∀ p ∈ same, offerAgent p = offerAgent o) :
    s.AllWait (o :: same) := by
  intro l p r hl
  cases l with
  | nil => cases hl; exact .inl hh
  | cons q l =>
    cases hl
    exact .inr ⟨o, List.mem_cons_self, (hsame p (by simp)).symm⟩

/-- Settles O53: `fetch` passes over the held offer to one of another agent, and finds none where all wait. -/
theorem heldOffersWait : Obligations.HeldOffersWait := by
  refine ⟨fun s o p rest hwf ho hheld hagent hfree => ?other, fun s o same hwf ho hheld hsame => ?same,
    fun s => step_of_allWait⟩
  case other =>
    have hwaiting : s.AllWait [o] := State.allWait_of_same_agent hheld nofun
    exact step_of_fetch_some hwf
      (fetch_free (waiting := [o]) ho hwaiting (fun q hq => by rw [List.mem_singleton.1 hq]; exact hagent.symm) hfree)
  case same =>
    exact step_of_allWait hwf (by rw [ho]; exact State.allWait_of_same_agent hheld hsame)

end Sys2Proof.Machine

/-! SUPPORT. The demultiplexer family (41_demux.md R160 to R178; O16 to O19, O22 to O28, O30 to O34): what each caller
operation does in each of its cases, then the heads of a frame, then the frame that GET_NEXT walks. -/

namespace Sys2Proof.Machine

/-! ### Caller operations without a meaning (R160, R204, R308) -/

section Ignored

variable {s : State}

theorem exec_getNext_disabled (h : s.enabled = false) :
    exec .getNext s = .next ((s.raise (.callerProtocol .getNext)).answer .none) := by
  simp [exec, execGetNext, h]

theorem exec_endOp_disabled (h : s.enabled = false) :
    exec .endOp s = .next ((s.raise (.callerProtocol .endOp)).answer .none) := by
  simp [exec, execEnd, h]

theorem exec_consume_ignored (h : s.commandOut = false) (n : Byte) :
    exec (.consume n) s = .next ((s.raise (.callerProtocol .consume)).answer .none) := by
  simp [exec, execConsume, h]

theorem exec_unknownCmd_ignored (h : s.commandOut = false) :
    exec .unknownCmd s = .next ((s.raise (.callerProtocol .unknownCmd)).answer .none) := by
  simp [exec, execUnknownCmd, h]

theorem exec_pushReport_ignored (h : s.cmdPending = false) (c : Byte) :
    exec (.pushReport c) s = .next ((s.raise (.callerProtocol .pushReport)).answer .none) :=
  if_neg (Bool.eq_false_iff.1 h)

theorem exec_pushData_ignored (h : s.cmdPending = false) (b : Byte) :
    exec (.pushData b) s = .next ((s.raise (.callerProtocol .pushData)).answer .none) :=
  if_neg (Bool.eq_false_iff.1 h)

end Ignored

/-- Settles O33: each operation tests for the state that gives it a meaning. -/
theorem meaninglessCallerOperationsAreIgnored : Obligations.MeaninglessCallerOperationsAreIgnored := by
  refine fun s b => ⟨fun hout => ?command, fun hpending => ?push, fun hdis => ?disabled⟩
  case command =>
    rw [← s.commandOut_iff, Bool.not_eq_true] at hout
    exact ⟨exec_consume_ignored hout b, exec_unknownCmd_ignored hout⟩
  case push =>
    rw [← s.cmdPending_iff, Bool.not_eq_true] at hpending
    exact ⟨exec_pushReport_ignored hpending b, exec_pushData_ignored hpending b⟩
  case disabled => exact ⟨exec_getNext_disabled hdis, exec_endOp_disabled hdis⟩

/-! ### The command handed out (R162 to R164) -/

section HandedOut

variable {s : State} (h : s.commandOut = true)
include h

theorem exec_consume_inRange {n : Byte} (hn : 1 ≤ n.toNat ∧ n.toNat ≤ s.windowLen) :
    exec (.consume n) s = .next (({ s with cmdOutstanding := false }.advance n.toNat).answer .none) := by
  simp [exec, execConsume, h, hn]

theorem exec_consume_outOfRange {n : Byte} (hn : ¬ (1 ≤ n.toNat ∧ n.toNat ≤ s.windowLen)) :
    exec (.consume n) s = .next (({ s with cmdOutstanding := false, cycUnknown := true, cycAbandon := true }.raise
      (.badConsume n s.windowLen)).answer .none) :=
  (if_pos h).trans (if_neg hn)

theorem exec_unknownCmd_out (hp : s.rxReadPtr < s.cfg.rxCap) :
    exec .unknownCmd s = .next (({ s with cmdOutstanding := false, cycUnknown := true, cycAbandon := true }.raise
      (.unknownOpcode s.headOpcode)).answer .none) :=
  (if_pos h).trans (if_pos ((s.hasIndex_iff .rx _).2 hp))

end HandedOut

/-- Settles O31: the two cases of the range test. -/
theorem consumeMovesTheCursorOrAbandons : Obligations.ConsumeMovesTheCursorOrAbandons := by
  intro s n he ha ho
  have hout := s.commandOut_iff.2 ⟨he, ha, ho⟩
  split
  case isTrue hn => exact exec_consume_inRange hout hn
  case isFalse hn => exact exec_consume_outOfRange hout hn

/-- Settles O32: the opcode read lies in the buffer. -/
theorem unknownCmdAbandonsTheFrame : Obligations.UnknownCmdAbandonsTheFrame :=
  fun s he ha ho hp => exec_unknownCmd_out (s.commandOut_iff.2 ⟨he, ha, ho⟩) hp

/-! ### GET_NEXT where there is nothing to walk (R160, R165 to R167) -/

section GetNext

variable {s : State} (he : s.enabled = true)
include he

theorem exec_getNext_unavailable (ha : s.rxAvailable = false) : exec .getNext s = .next (s.answer .none) := by
  simp [exec, execGetNext, he, ha]

theorem exec_getNext_outstanding (ha : s.rxAvailable = true) (ho : s.cmdOutstanding = true) :
    exec .getNext s = .next (s.answer (.cmd s.windowLen)) := by
  simp [exec, execGetNext, he, ha, ho]

end GetNext

/-- Settles O16: the three cases in which GET_NEXT does not walk. -/
theorem getNextAnswersAtOnceWhenNothingIsToWalk : Obligations.GetNextAnswersAtOnceWhenNothingIsToWalk :=
  fun _ => ⟨exec_getNext_disabled, exec_getNext_unavailable, exec_getNext_outstanding⟩

/-! ### The hold of GET_NEXT (R165) -/

theorem State.getNextHeld_iff (s : State) : s.getNextHeld = true ↔
    s.enabled = true ∧ s.rxAvailable = true ∧ s.cmdOutstanding = false ∧ s.txEmitting = true := by
  simp only [State.getNextHeld, Bool.and_eq_true, Bool.not_eq_true', and_assoc]

theorem State.opReady_getNext (s : State) (arg : Byte) : s.opReady (callerWord .getNext arg) = !s.getNextHeld := by
  rw [State.opReady, decodeCaller_callerWord]
  rfl

/-- A held receive event changes nothing (R121). -/
theorem exec_receive_held {s : State} (h : s.rxHeld = true) {i : Instr}
    (hi : i = .rxSync ∨ i = .rxMark ∨ ∃ b, i = .rxData b) : exec i s = .next s := by
  rcases hi with rfl | rfl | ⟨b, rfl⟩
  · exact show execRxSync s = _ from rxGate_held _ h
  · exact show execRxMark s = _ from rxGate_held _ h
  · exact show execRxData b s = _ from rxGate_held _ h

section Held

variable {s t : State} (h : s.getNextHeld = true)
include h

theorem exec_getNext_held : exec .getNext s = .next s := by
  obtain ⟨he, ha, ho, hemit⟩ := s.getNextHeld_iff.1 h
  simp [exec, execGetNext, he, ha, ho, hemit]

theorem State.rxHeld_of_getNextHeld : s.rxHeld = true := by
  obtain ⟨he, ha, -, -⟩ := s.getNextHeld_iff.1 h
  simp [State.rxHeld, he, ha]

theorem State.commandOut_of_getNextHeld : s.commandOut = false := by
  obtain ⟨-, -, ho, -⟩ := s.getNextHeld_iff.1 h
  simp [State.commandOut, ho]

theorem State.append_getNextHeld (v : Byte) : (s.append v).getNextHeld = true := by
  simpa [State.getNextHeld] using h

theorem execPushReport_getNextHeld {c : Byte} (ht : execPushReport c s = .next t) : t.getNextHeld = true := by
  rcases execPushReport_next ht with ⟨-, -, rfl⟩ | rfl
  · exact State.append_getNextHeld h c
  · exact h

theorem execPushData_getNextHeld {b : Byte} (ht : execPushData b s = .next t) : t.getNextHeld = true := by
  rcases execPushData_next ht with ⟨-, -, rfl⟩ | rfl
  · exact State.append_getNextHeld h b
  · exact h

theorem execTxEmit_getNextHeld (ht : execTxEmit s = .next t) :
    t.getNextHeld = true ∨ s.txEmitPtr + 1 = s.retLen := by
  by_cases hlast : s.txEmitPtr + 1 = s.retLen
  · exact .inr hlast
  · rcases execTxEmit_next ht with ⟨-, -, rfl⟩ | ⟨-, rfl⟩
    · obtain ⟨he, ha, ho, -⟩ := s.getNextHeld_iff.1 h
      exact .inl ((State.getNextHeld_iff _).2 ⟨he, ha, ho, decide_eq_true hlast⟩)
    · exact .inl h

/-- Only the end of the emission and a re-initialising event lift the hold. -/
theorem exec_keeps_getNextHeld {i : Instr} (hi : isCommandHead i = false) (ht : exec i s = .next t) :
    t.getNextHeld = true ∨ (i = .txEmit ∧ s.txEmitPtr + 1 = s.retLen) ∨ i = .endOp ∨ i = .rst ∨ i = .beginOp := by
  have hrx := State.rxHeld_of_getNextHeld h
  cases i with
  | nop => cases ht; exact .inl h
  | getNext => rw [exec_getNext_held h] at ht; cases ht; exact .inl h
  | consume n => rw [exec_consume_ignored (State.commandOut_of_getNextHeld h)] at ht; cases ht; exact .inl h
  | pushReport c => exact .inl (execPushReport_getNextHeld h ht)
  | pushData b => exact .inl (execPushData_getNextHeld h ht)
  | beginOp => exact .inr (.inr (.inr (.inr rfl)))
  | endOp => exact .inr (.inr (.inl rfl))
  | unknownCmd => rw [exec_unknownCmd_ignored (State.commandOut_of_getNextHeld h)] at ht; cases ht; exact .inl h
  | rxSync => rw [exec_receive_held hrx (.inl rfl)] at ht; cases ht; exact .inl h
  | rxMark => rw [exec_receive_held hrx (.inr (.inl rfl))] at ht; cases ht; exact .inl h
  | rxData b => rw [exec_receive_held hrx (.inr (.inr ⟨b, rfl⟩))] at ht; cases ht; exact .inl h
  | txEmit => exact (execTxEmit_getNextHeld h ht).imp_right fun hlast => .inl ⟨rfl, hlast⟩
  | reset arg => cases hi
  | setaddr a => cases hi
  | retry => cases hi
  | opaqueCmd op => cases hi
  | rst => exact .inr (.inr (.inr (.inl rfl)))

end Held

/-- Settles O17: every port event either keeps the hold or is one of those named. -/
theorem getNextIsHeldUntilTheEmissionEnds : Obligations.GetNextIsHeldUntilTheEmissionEnds := by
  intro s arg
  simp only [State.opReady_getNext, Bool.not_eq_false', Bool.not_eq_true']
  refine ⟨s.getNextHeld_iff, exec_getNext_held, fun t o hheld ht hlifted => ?_⟩
  exact (exec_keeps_getNextHeld hheld (decodeOffer_not_head s.cfg o) ht).resolve_left (by simp [hlifted])

/-! ### The driver calls of a command head (R264; log entries 7 and 12) -/

/-- The calls of an event that leaves sense and LED at `v`. -/
theorem State.readyCalls_of_ready {s t : State} {v : Bool} (hs : t.senseReady = v) (hl : t.ledReady = v) :
    s.readyCalls t = (if s.ledReady = v then [] else [.driver (.ledSet v)]) ++
      (if s.senseReady = v then [] else [.driver (.senseSet v)]) := by
  simp only [State.readyCalls, hs, hl, eq_comm (a := v)]

/-! ### RESET, RETRY and opaque heads (R170, R171, R175, R176) -/

/-- Settles O22: the calls are those of the registers that were ready. -/
theorem resetCommandClearsTheAddress : Obligations.ResetCommandClearsTheAddress := by
  intro s
  change Host.Outcome.next (s.noteReady (s.resetHead (some s.cfg.resetArg))) = _
  rw [State.resetHead, if_pos rfl, State.noteReady, State.readyCalls_of_ready (v := false) rfl rfl, List.append_assoc]
  cases s.ledReady <;> cases s.senseReady <;> rfl

/-- Settles O23: a malformed command leaves sense and LED, so no driver is called. -/
theorem malformedCommandsAbandonTheFrame : Obligations.MalformedCommandsAbandonTheFrame := by
  refine fun s arg => ⟨fun harg => ?_, congrArg Host.Outcome.next (State.noteReady_same rfl rfl)⟩
  change Host.Outcome.next (s.noteReady (s.resetHead arg)) = _
  rw [State.resetHead, if_neg harg]
  exact congrArg Host.Outcome.next (State.noteReady_same rfl rfl)

/-- A retained response is offered again from its first byte (R228). -/
theorem State.retransmit_retained {s : State} (h : s.retValid = true) :
    s.retransmit = { s with txEmitPtr := 0, txEmitting := true }.raise (.retransmit s.retLen) :=
  if_pos h

/-- With nothing retained a status-only response is latched (R229). -/
theorem State.retransmit_empty {s : State} (h : s.retValid = false) :
    s.retransmit = (s.latch (emptyRetryImage s.cfg)).raise .retryEmpty :=
  if_neg (by simp [h])

/-- RETRY releases the frame and clears the cycle, then retransmits (R175). -/
theorem exec_retry_eq (s : State) : exec .retry s = .next (s.released.clearCycle.retransmit.answer .none) := rfl

/-- Settles O26: the release and the cleared cycle leave the latch as it was. -/
theorem retryOffersTheRetainedResponse : Obligations.RetryOffersTheRetainedResponse := by
  intro s hvalid
  have hretained : s.released.clearCycle.retValid = true := hvalid
  rw [exec_retry_eq, State.retransmit_retained hretained]
  rfl

/-- A run of bytes written from an index on is read back from there. -/
theorem State.bytes_of_writeList {s : State} {sp : Space} {m : Memory} {i : Nat} {l : List Byte}
    (h : s.mem sp = m.writeList i l) : s.bytes sp i l.length = l := by
  apply State.bytes_eq_of
  intro k hk
  rw [State.byte, h, Memory.read_writeList_same l m hk]

/-- The latch writes the response and no byte besides (R226). -/
theorem State.latch_sameBytesBut (s : State) (image : List Byte) :
    s.SameBytesBut (fun sp i => sp = .ret ∧ i < (wireImage s.cfg image).length) (s.latch image) := by
  intro sp i hout
  by_cases hsp : sp = .ret
  · subst hsp
    have hbeyond : 0 + (wireImage s.cfg image).length ≤ i := by
      rw [Nat.zero_add]
      exact Nat.not_lt.1 fun hi => hout ⟨rfl, hi⟩
    simp only [State.byte, State.mem, State.latch_retBuf, Memory.read_writeList_other _ _ (.inr hbeyond),
      State.latch_draws]
  · exact s.latch_byte_other image hsp i

/-- Settles O27: the bytes are those the latch holds; releasing the frame and clearing the cycle write none. -/
theorem retryWithNothingRetainedSendsAStatus : Obligations.RetryWithNothingRetainedSendsAStatus := by
  intro s hvalid
  have hempty : s.released.clearCycle.retValid = false := hvalid
  have hother := State.latch_sameBytesBut s.released.clearCycle (emptyRetryImage s.cfg)
  refine ⟨_, (exec_retry_eq s).trans (by rw [State.retransmit_empty hempty]), ?latch, ?other, rfl⟩
  case latch => exact State.bytes_of_writeList (m := s.retBuf) rfl
  case other =>
    intro sp i hout
    rw [State.byte_answer, State.byte_raise]
    exact (hother sp i hout).trans (by rw [State.byte_clearCycle, State.byte_released])

/-- Settles O28: the head's meaning is this update. -/
theorem opaqueCommandIsHandedOut : Obligations.OpaqueCommandIsHandedOut := fun _ _ => rfl

/-! ### SETADDR (R172 to R174) -/

theorem State.addrAccepted_iff (s : State) (a : Byte) :
    s.addrAccepted a = true ↔ s.devAddr = 0 ∧ s.cfg.addrMin ≤ a ∧ a ≤ s.cfg.addrMax := by
  simp [State.addrAccepted, Config.addrInRange]

/-- `t` holds `v` behind the queue of `s`, or has dropped it and set `tx_ovf`; no other byte differs (R200). -/
def State.QueuedIn (s : State) (v : Byte) (t : State) : Prop :=
  if s.txReportSize < s.cfg.qMax then
    t.byte .tx (2 + s.txReportSize) = v ∧ t.txReportSize = s.txReportSize + 1 ∧ t.txOvf = s.txOvf ∧
      s.SameBytesBut (fun sp i => sp = .tx ∧ i = 2 + s.txReportSize) t
  else
    t.txReportSize = s.txReportSize ∧ t.txOvf = true ∧ s.SameBytesBut (fun _ _ => False) t

theorem State.append_queuedIn (s : State) (v : Byte) : s.QueuedIn v (s.append v) := by
  have hspec := s.append_spec v
  unfold State.QueuedIn
  split
  case isTrue hroom =>
    rw [if_pos hroom] at hspec
    obtain ⟨hbyte, hsize, hovf, -, hsame⟩ := hspec
    exact ⟨hbyte, hsize, hovf, hsame⟩
  case isFalse hfull =>
    rw [if_neg hfull] at hspec
    obtain ⟨hsize, hovf, -, hsame⟩ := hspec
    exact ⟨hsize, hovf, hsame⟩

theorem State.append_trace (s : State) (v : Byte) :
    (s.append v).trace = (if s.txReportSize < s.cfg.qMax then [] else [.raised (.txOverflow v)]) ++ s.trace := by
  rcases s.append_cases v with ⟨hroom, h⟩ | ⟨hfull, h⟩ <;> rw [h]
  · rw [if_pos hroom]; rfl
  · rw [if_neg (by omega)]; rfl

/-- A report queued behind the registers of `u`, and the cursor moved past the command, at the end of an event. -/
theorem State.noteReady_append_advance (s u : State) (v : Byte) (n : Nat) :
    s.noteReady ((u.append v).advance n) = { u with
      rxReadPtr := u.rxReadPtr + n
      txBuf := (u.append v).txBuf
      txReportSize := (u.append v).txReportSize
      txOvf := (u.append v).txOvf
      trace := s.readyCalls u ++
        ((if u.txReportSize < u.cfg.qMax then [] else [.raised (.txOverflow v)]) ++ u.trace) } := by
  have hcalls : s.readyCalls ((u.append v).advance n) = s.readyCalls u := by simp [State.readyCalls]
  rw [State.noteReady, hcalls, State.advance_trace, State.append_trace]
  have hframe := u.append_frame v
  generalize u.append v = w at hframe ⊢
  rw [hframe]
  rfl

theorem exec_setaddr_accepted {s : State} {a : Byte} (h : s.addrAccepted a = true) :
    exec (.setaddr (some a)) s =
      .next (s.noteReady ((({ s with devAddr := a }.driveReady true).append s.cfg.reportOk).advance 2)) := by
  simp [exec, execSetaddr, State.setaddrHead, h]

theorem exec_setaddr_ignored {s : State} {a : Byte} (h : s.addrAccepted a = false) :
    exec (.setaddr (some a)) s = .next (s.noteReady ((s.append s.cfg.reportParamIgnored).advance 2)) := by
  simp [exec, execSetaddr, State.setaddrHead, h]

/-- Settles O24: the report is queued behind the registers the command sets. -/
theorem setaddrIsAcceptedWhenUnassigned : Obligations.SetaddrIsAcceptedWhenUnassigned := by
  intro s a hdev hmin hmax
  refine ⟨_, exec_setaddr_accepted ((s.addrAccepted_iff a).2 ⟨hdev, hmin, hmax⟩), ?frame, ?queue⟩
  case frame =>
    rw [State.noteReady_append_advance, State.readyCalls_of_ready (v := true) rfl rfl, List.append_assoc]
    rfl
  case queue => exact State.append_queuedIn ({ s with devAddr := a }.driveReady true) s.cfg.reportOk

/-- Settles O25: sense and LED stay, so no driver is called. -/
theorem setaddrIsIgnoredOtherwise : Obligations.SetaddrIsIgnoredOtherwise := by
  intro s a hother
  have hacc : s.addrAccepted a = false := by
    rw [← Bool.not_eq_true, s.addrAccepted_iff]
    rintro ⟨hdev, hmin, hmax⟩
    exact hother.elim (· hdev) (·.elim (BitVec.not_lt.2 hmin) (BitVec.not_lt.2 hmax))
  refine ⟨_, exec_setaddr_ignored hacc, ?frame, ?queue⟩
  case frame => rw [State.noteReady_append_advance, State.readyCalls_same rfl rfl, List.nil_append]
  case queue => exact State.append_queuedIn s s.cfg.reportParamIgnored

/-! ### GET_NEXT at a command boundary (R161, R168) -/

/-- GET_NEXT walks the frame: it is available, no command is handed out and nothing is being emitted. -/
structure State.AtBoundary (s : State) : Prop where
  enabled : s.enabled = true
  available : s.rxAvailable = true
  waiting : s.cmdOutstanding = false
  idle : s.txEmitting = false

section Boundary

variable {s : State} (h : s.AtBoundary)
include h

theorem State.AtBoundary.exec_getNext :
    exec .getNext s = andThen (walk (s.windowLen + 1) s) fun t => .next (s.noteReady t) := by
  simp [exec, execGetNext, h.enabled, h.available, h.waiting, h.idle]

/-- At the end of DATA, or of an abandoned frame, GET_NEXT ends the cycle; sense and LED stay, so it calls no driver. -/
theorem State.AtBoundary.exec_getNext_end (hend : s.cycAbandon = true ∨ s.dataEnd ≤ s.rxReadPtr) :
    exec .getNext s = andThen (endCycle s) answerNone := by
  rw [h.exec_getNext, walk_end hend]
  cases ht : andThen (endCycle s) answerNone with
  | next t =>
    have hquiet := endCycle_quiet ht
    rw [andThen_next, State.noteReady_same hquiet.senseReady hquiet.ledReady]
  | fault _ => rfl
  | refused _ => rfl

theorem State.AtBoundary.resetHead (arg : Option Byte) : (s.resetHead arg).AtBoundary := by
  rcases s.resetHead_cases arg with ⟨-, he⟩ | ⟨-, he⟩ <;> rw [he] <;>
    exact ⟨h.enabled, h.available, h.waiting, h.idle⟩

theorem State.AtBoundary.append_advance (v : Byte) (n : Nat) : ((s.append v).advance n).AtBoundary := by
  constructor <;> simp [h.enabled, h.available, h.waiting, h.idle]

theorem State.AtBoundary.setaddrHead (arg : Option Byte) : (s.setaddrHead arg).AtBoundary := by
  rcases s.setaddrHead_cases arg with ⟨-, he⟩ | ⟨a, -, -, he⟩ | ⟨a, -, -, he⟩ <;> rw [he]
  · exact ⟨h.enabled, h.available, h.waiting, h.idle⟩
  · have hready : ({ s with devAddr := a }.driveReady true).AtBoundary := ⟨h.enabled, h.available, h.waiting, h.idle⟩
    exact hready.append_advance _ 2
  · exact h.append_advance _ 2

theorem State.AtBoundary.noteReady (o : State) : (o.noteReady s).AtBoundary :=
  ⟨h.enabled, h.available, h.waiting, h.idle⟩

end Boundary

theorem State.suppresses_iff (s : State) : s.suppresses = true ↔
    s.cycResetSeen = true ∧ s.txReportSize = 1 ∧ s.cycUnknown = false ∧ s.txOvf = false := by
  simp [State.suppresses, and_assoc]

/-- Settles O19: the walk ends at once, and the end of the cycle is suppressed. -/
theorem resetOnlyCycleIsSuppressed : Obligations.ResetOnlyCycleIsSuppressed := by
  intro s he ha ho hidle hend hreset hsize hunknown hovf
  have hsup : s.suppresses = true := s.suppresses_iff.2 ⟨hreset, hsize, hunknown, hovf⟩
  have hcycle : endCycle s = .next (s.released.clearCycle.raise .responseSuppressed) := if_pos hsup
  rw [State.AtBoundary.exec_getNext_end ⟨he, ha, ho, hidle⟩ hend, hcycle]
  simp only [andThen_next, answerNone, State.clearCycle, State.released, State.raise, State.answer, State.note, ho,
    hsize, hunknown, hovf]

/-! ### The command GET_NEXT hands out (R178) -/

theorem endCycle_cmdOutstanding {s t : State} (h : andThen (endCycle s) answerNone = .next t) :
    t.cmdOutstanding = false := by
  rcases endCycle_next h with ⟨rfl, -⟩ | ⟨rfl, -, -⟩ <;> simp

theorem execRetry_cmdOutstanding {s t : State} (h : execRetry s = .next t) : t.cmdOutstanding = false := by
  rw [execRetry_next h, State.retransmit]
  split <;> rfl

/-- A walk that hands a command out stopped at an opaque head. -/
theorem walk_handsOut_opaque {s t : State} {n : Nat} (hs : s.AtBoundary) (h : walk n s = .next t)
    (ht : t.cmdOutstanding = true) : headClassOf t.cfg t.headOpcode = .opaqueCmd := by
  refine walk_relation (Pre := State.AtBoundary)
    (R := fun _ t => t.cmdOutstanding = true → headClassOf t.cfg t.headOpcode = .opaqueCmd)
    ?refl (fun _ _ _ _ htu => htu) ?ended ?reset ?setaddr ?retry ?handedOut n s t hs h ht
  case refl => exact fun s hs hout => absurd (hs.waiting.symm.trans hout) nofun
  case ended => exact fun s t _ hend hout => absurd ((endCycle_cmdOutstanding hend).symm.trans hout) nofun
  case reset =>
    intro s hs _ _ _
    have hnext := hs.resetHead s.headOperand
    exact ⟨fun hout => absurd (hnext.waiting.symm.trans hout) nofun, hnext⟩
  case setaddr =>
    intro s hs _ _ _
    have hnext := hs.setaddrHead s.headOperand
    exact ⟨fun hout => absurd (hnext.waiting.symm.trans hout) nofun, hnext⟩
  case retry => exact fun s t _ hretry hout => absurd ((execRetry_cmdOutstanding hretry).symm.trans hout) nofun
  case handedOut =>
    intro s t _ _ hclass hop _
    cases hop
    exact hclass

/-- Settles O30: only the walk hands a command out, and its opcode is classed as opaque. -/
theorem coreOpcodesAreNeverHandedOut : Obligations.CoreOpcodesAreNeverHandedOut := by
  intro s t hs h hout
  rw [← headClassOf_eq_opaqueCmd_iff]
  rcases execGetNext_next h with
    ⟨-, rfl⟩ | ⟨-, -, rfl⟩ | ⟨-, -, ho, -⟩ | ⟨-, -, -, -, rfl⟩ | ⟨he, ha, -, hidle, u, hu, rfl⟩
  · exact absurd (hs.symm.trans hout) nofun
  · exact absurd (hs.symm.trans hout) nofun
  · exact absurd (hs.symm.trans ho) nofun
  · exact absurd (hs.symm.trans hout) nofun
  · exact walk_handsOut_opaque (t := u) ⟨he, ha, hs, hidle⟩ hu hout

/-! ### The command at the head (R90, R91, R161) -/

/-- The command at the cursor. -/
def State.head (s : State) : Instr :=
  match headClassOf s.cfg s.headOpcode with
  | .reset => .reset s.headOperand
  | .setaddr => .setaddr s.headOperand
  | .retry => .retry
  | .opaqueCmd => .opaqueCmd s.headOpcode

/-- The bytes of DATA from the cursor on begin with the opcode and, where there is one, the operand. -/
theorem State.window_eq_cons {s : State} (hp : s.rxReadPtr < s.dataEnd) :
    ∃ rest, s.window = s.headOpcode :: rest ∧ rest.head? = s.headOperand := by
  obtain ⟨n, hn⟩ : ∃ n, s.windowLen = n + 1 := ⟨s.windowLen - 1, by rw [State.windowLen]; omega⟩
  refine ⟨s.bytes .rx (s.rxReadPtr + 1) n, by rw [State.window, hn]; rfl, ?_⟩
  rw [State.headOperand, hn]
  cases n with
  | zero => rfl
  | succ n => rw [if_neg (by omega)]; rfl

theorem State.decodeHead_window {s : State} (hp : s.rxReadPtr < s.dataEnd) :
    decodeHead s.cfg s.window = .ok s.head := by
  obtain ⟨rest, hwindow, hoperand⟩ := State.window_eq_cons hp
  rw [hwindow, decodeHead, State.head, hoperand]
  cases headClassOf s.cfg s.headOpcode <;> rfl

/-! ### GET_NEXT split at a RESET or SETADDR (R161; log entries 12 and 17) -/

theorem filter_readyCalls (s t : State) : (s.readyCalls t).filter (fun n => !n.isDriver) = [] := by
  unfold State.readyCalls
  split <;> split <;> rfl

theorem withoutCalls_noteReady (s : State) (r : Result) :
    withoutCalls (andThen r fun t => .next (s.noteReady t)) = withoutCalls r := by
  cases r with
  | next t => simp [withoutCalls, State.noteReady, filter_readyCalls]
  | fault _ => rfl
  | refused _ => rfl

/-- A walk behind two traces that differ in driver calls ends in two states that differ in them. -/
theorem withoutCalls_walk_withPast (s : State) (n : Nat) {p q : List Note}
    (hpq : (p.filter fun note => !note.isDriver) = q.filter fun note => !note.isDriver) :
    withoutCalls (walk n (s.withPast p)) = withoutCalls (walk n (s.withPast q)) := by
  rw [walk_withPast, walk_withPast]
  cases walk n s with
  | next t => simp [withoutCalls, State.withPast, hpq]
  | fault _ => rfl
  | refused _ => rfl

theorem withoutCalls_walk_noteReady (s u : State) (n : Nat) :
    withoutCalls (walk n (s.noteReady u)) = withoutCalls (walk n u) :=
  withoutCalls_walk_withPast { u with trace := [] } n (p := s.readyCalls u ++ u.trace) (q := u.trace)
    (by rw [List.filter_append, filter_readyCalls, List.nil_append])

/-- Behind a command that abandons the frame or is passed by, one pass less than `rem + 1` is as good
as GET_NEXT's own count. -/
theorem walk_behind_command {s u : State} (hp : s.rxReadPtr < s.dataEnd)
    (hu : u.cycAbandon = true ∨ (u.rxReadPtr = s.rxReadPtr + 2 ∧ u.rxSize = s.rxSize)) :
    walk s.windowLen u = walk (u.windowLen + 1) u := by
  have hpos : 1 ≤ s.windowLen := by rw [State.windowLen]; omega
  rcases Nat.lt_or_ge u.windowLen s.windowLen with hlt | hge
  · exact walk_passes (u.windowLen + 1) _ u (.inr (Nat.lt_succ_self _)) (Nat.succ_pos _) hlt
  · refine (walk_passes s.windowLen _ u (.inl ?_) hpos (Nat.le_succ_of_le hge)).symm
    refine hu.resolve_right fun ⟨hptr, hsize⟩ => ?_
    simp only [State.windowLen, State.dataEnd, hptr, hsize] at hge hp
    omega

/-- The walk from `s` goes on from `u`, the state RESET or SETADDR leaves, as another GET_NEXT would. -/
theorem exec_getNext_goesOn {s u : State} (hs : s.AtBoundary) (hu : u.AtBoundary) (hp : s.rxReadPtr < s.dataEnd)
    (hwalk : walk (s.windowLen + 1) s = walk s.windowLen u)
    (hprogress : u.cycAbandon = true ∨ (u.rxReadPtr = s.rxReadPtr + 2 ∧ u.rxSize = s.rxSize)) :
    withoutCalls (exec .getNext s) = withoutCalls (exec .getNext (s.noteReady u)) :=
  calc withoutCalls (exec .getNext s)
      = withoutCalls (walk (s.windowLen + 1) s) := by rw [hs.exec_getNext, withoutCalls_noteReady]
    _ = withoutCalls (walk (u.windowLen + 1) u) := by rw [hwalk, walk_behind_command hp hprogress]
    _ = withoutCalls (walk (u.windowLen + 1) (s.noteReady u)) := (withoutCalls_walk_noteReady s u _).symm
    _ = withoutCalls (exec .getNext (s.noteReady u)) := by
      rw [(hu.noteReady s).exec_getNext, withoutCalls_noteReady]; rfl

/-- Settles O18: one pass of the walk at each of the four heads. -/
theorem getNextRunsTheCommandAtTheHead : Obligations.GetNextRunsTheCommandAtTheHead := by
  intro s i he ha ho hidle hab hp hsize hdec
  have hs : s.AtBoundary := ⟨he, ha, ho, hidle⟩
  have hwalk := walk_head hab hp (le_trans (Nat.sub_le _ _) hsize) s.windowLen
  obtain rfl : s.head = i := Except.ok.inj ((State.decodeHead_window hp).symm.trans hdec)
  unfold State.head
  cases hclass : headClassOf s.cfg s.headOpcode <;> rw [hclass] at hwalk
  case reset => exact exec_getNext_goesOn hs (hs.resetHead _) hp hwalk (s.resetHead_progress _)
  case setaddr => exact exec_getNext_goesOn hs (hs.setaddrHead _) hp hwalk (s.setaddrHead_progress _)
  case retry => rw [hs.exec_getNext, withoutCalls_noteReady, hwalk]; rfl
  case opaqueCmd => rw [hs.exec_getNext, withoutCalls_noteReady, hwalk]; rfl

/-! ### Pushes that fit (R200 to R202, R205) -/

theorem Memory.writeList_append (l r : List Byte) : ∀ (m : Memory) (i : Nat),
    m.writeList i (l ++ r) = (m.writeList i l).writeList (i + l.length) r := by
  induction l with
  | nil => intro m i; rfl
  | cons v l ih => intro m i; rw [List.cons_append, Memory.writeList, ih, List.length_cons, Nat.add_right_comm]; rfl

/-- After pushes of the bytes of `l`, each answered NONE, where all of them fit. -/
def State.pushed (s : State) (l : List Byte) : State :=
  { s with
    txBuf := s.txBuf.writeList (2 + s.txReportSize) l
    txReportSize := s.txReportSize + l.length
    trace := List.replicate l.length (.answered .none) ++ s.trace }

theorem State.pushed_append (s : State) (l r : List Byte) : s.pushed (l ++ r) = (s.pushed l).pushed r := by
  simp only [State.pushed, List.length_append, Memory.writeList_append, Nat.add_assoc, Nat.add_comm l.length r.length,
    List.replicate_add, List.append_assoc]

theorem State.append_answer_of_fits {s : State} (h : s.txReportSize < s.cfg.qMax) (v : Byte) :
    (s.append v).answer .none = s.pushed [v] := by
  rw [State.append, if_pos h]
  rfl

section Pushes

variable {s : State} (h : s.cmdPending = true)
include h

theorem exec_pushData_fits (hq : s.txReportSize < s.cfg.qMax) (b : Byte) :
    exec (.pushData b) s = .next (s.pushed [b]) :=
  (if_pos h).trans (congrArg Host.Outcome.next (State.append_answer_of_fits hq b))

theorem exec_pushReport_fits (hq : s.txReportSize < s.cfg.qMax) {c : Byte} (hc : c ≠ s.cfg.reportParamNoresp) :
    exec (.pushReport c) s = .next (s.pushed [c]) := by
  have hno : (c == s.cfg.reportParamNoresp) = false := by simpa using hc
  refine (if_pos h).trans ?_
  rw [State.append_cycAbandon, hno, Bool.or_false, ← State.append_answer_of_fits hq, ← State.append_cycAbandon s c]

theorem runEvents_pushData (l : List Byte) (hq : s.txReportSize + l.length ≤ s.cfg.qMax) :
    runEvents (l.map .pushData) s = .next (s.pushed l) := by
  induction l generalizing s with
  | nil => rfl
  | cons b l ih =>
    rw [List.length_cons] at hq
    rw [List.map_cons, runEvents, exec_pushData_fits h (by omega), andThen_next,
      ih (s := s.pushed [b]) h (show s.txReportSize + 1 + l.length ≤ s.cfg.qMax by omega)]
    exact congrArg Host.Outcome.next (s.pushed_append [b] l).symm

/-- A report of a command: its code, then its result bytes. -/
theorem runEvents_report (v : Served) (hq : s.txReportSize + v.report.length ≤ s.cfg.qMax)
    (hc : v.code ≠ s.cfg.reportParamNoresp) :
    runEvents (.pushReport v.code :: v.result.map .pushData) s = .next (s.pushed v.report) := by
  rw [Served.report, List.length_cons] at hq
  rw [runEvents, exec_pushReport_fits h (by omega) hc, andThen_next,
    runEvents_pushData (s := s.pushed [v.code]) h v.result
      (show s.txReportSize + 1 + v.result.length ≤ s.cfg.qMax by omega)]
  exact congrArg Host.Outcome.next (s.pushed_append [v.code] v.result).symm

end Pushes

/-- The bytes pushed stand behind those queued before. -/
theorem State.pushed_queue (s : State) (l : List Byte) (h : 1 ≤ s.txReportSize) :
    (s.pushed l).bytes .tx 3 ((s.pushed l).txReportSize - 1) = s.bytes .tx 3 (s.txReportSize - 1) ++ l := by
  obtain ⟨n, hn⟩ : ∃ n, s.txReportSize = n + 1 := ⟨s.txReportSize - 1, by omega⟩
  have hmem : (s.pushed l).mem .tx = s.txBuf.writeList (3 + n) l := by
    rw [show 3 + n = 2 + s.txReportSize by omega]; rfl
  have hold : (s.pushed l).bytes .tx 3 n = s.bytes .tx 3 n := by
    refine State.bytes_congr fun k hk => ?_
    rw [State.byte, hmem, Memory.read_writeList_other l s.txBuf (.inl (by omega))]
    rfl
  rw [show (s.pushed l).txReportSize - 1 = n + l.length from show s.txReportSize + l.length - 1 = _ by omega,
    State.bytes_append, hold, State.bytes_of_writeList hmem, hn, Nat.add_sub_cancel]

theorem handedOut_replicate_none (n : Nat) (trace : List Note) :
    handedOut (List.replicate n (.answered .none) ++ trace) = handedOut trace := by
  induction n with
  | zero => rfl
  | succ n ih => exact ih

/-! ### One command served (R162, R176, R177) -/

/-- A command has been handed out with the whole window (R176). -/
def State.withCommandOut (s : State) : State := { s with cmdOutstanding := true }.answer (.cmd s.windowLen)

/-- At an opaque head GET_NEXT hands the command out. -/
theorem State.AtBoundary.exec_getNext_opaque {s : State} (h : s.AtBoundary) (ha : s.cycAbandon = false)
    (hp : s.rxReadPtr < s.dataEnd) (hc : s.dataEnd ≤ s.cfg.rxCap)
    (hclass : headClassOf s.cfg s.headOpcode = .opaqueCmd) :
    exec .getNext s = .next s.withCommandOut := by
  rw [h.exec_getNext, walk_head ha hp hc, hclass]
  exact congrArg Host.Outcome.next (State.noteReady_same rfl rfl)

/-- After one command has been handed out, answered and consumed. -/
def State.served (s : State) (v : Served) : State :=
  { s with
    rxReadPtr := s.rxReadPtr + v.command.length
    txBuf := s.txBuf.writeList (2 + s.txReportSize) v.report
    txReportSize := s.txReportSize + v.report.length
    trace := .answered .none ::
      (List.replicate v.report.length (.answered .none) ++ .answered (.cmd s.windowLen) :: s.trace) }

theorem State.served_cfg (s : State) (v : Served) : (s.served v).cfg = s.cfg := rfl
theorem State.served_txReportSize (s : State) (v : Served) :
    (s.served v).txReportSize = s.txReportSize + v.report.length := rfl

theorem State.served_queue (s : State) (v : Served) (h : 1 ≤ s.txReportSize) :
    (s.served v).bytes .tx 3 ((s.served v).txReportSize - 1) = s.bytes .tx 3 (s.txReportSize - 1) ++ v.report :=
  calc (s.served v).bytes .tx 3 ((s.served v).txReportSize - 1)
      = (s.pushed v.report).bytes .tx 3 ((s.pushed v.report).txReportSize - 1) :=
      State.bytes_of_mem (s := s.pushed v.report) (t := s.served v) rfl rfl 3 _
    _ = s.bytes .tx 3 (s.txReportSize - 1) ++ v.report := s.pushed_queue v.report h

theorem State.served_handedOut (s : State) (v : Served) :
    handedOut (s.served v).trace = handedOut s.trace ++ [s.windowLen] :=
  handedOut_replicate_none v.report.length (.answered (.cmd s.windowLen) :: s.trace)

theorem State.windowLen_of_window {s : State} {l : List Byte} (h : s.window = l) : s.windowLen = l.length := by
  rw [← h, State.window, State.bytes_length]

/-- A window that holds a command first leaves the rest of it behind the command. -/
theorem State.served_window {s : State} {v : Served} {rest : List Byte} (h : s.window = v.command ++ rest) :
    (s.served v).window = rest := by
  have hlen : s.windowLen = v.command.length + rest.length :=
    (State.windowLen_of_window h).trans List.length_append
  have hrest : (s.served v).windowLen = rest.length := by
    have hcursor : (s.served v).windowLen = s.dataEnd - (s.rxReadPtr + v.command.length) := rfl
    rw [hcursor, Nat.sub_add_eq, ← State.windowLen, hlen, Nat.add_sub_cancel_left]
  rw [State.window, hlen, State.bytes_append] at h
  calc (s.served v).window
      = (s.served v).bytes .rx (s.rxReadPtr + v.command.length) rest.length := by rw [State.window, hrest]; rfl
    _ = s.bytes .rx (s.rxReadPtr + v.command.length) rest.length :=
      State.bytes_of_mem (s := s) (t := s.served v) rfl rfl _ _
    _ = rest := List.append_inj_right h (State.bytes_length ..)

theorem Served.events_eq (v : Served) : v.events =
    .getNext :: ((.pushReport v.code :: v.result.map .pushData) ++ [.consume (BitVec.ofNat 8 v.command.length)]) := rfl

section Serve

variable {s : State} (hs : s.Inv) (hb : s.AtBoundary) {v : Served} {rest : List Byte}
  (hw : s.window = v.command ++ rest)

include hw in
/-- Behind the cursor stand at least the opcode and its payload. -/
theorem State.command_le_windowLen : 1 ≤ v.command.length ∧ v.command.length ≤ s.windowLen := by
  rw [State.windowLen_of_window hw, List.length_append]
  exact ⟨Nat.succ_pos _, Nat.le_add_right _ _⟩

include hw in
theorem State.lt_dataEnd_of_command : s.rxReadPtr < s.dataEnd := by
  obtain ⟨hpos, hle⟩ := State.command_le_windowLen hw
  rw [State.windowLen] at hle
  omega

include hs hw in
/-- The length of a command fits the operand of CONSUME: DATA is shorter than 256 bytes (R8 (5)). -/
theorem State.Inv.toNat_command_length : (BitVec.ofNat 8 v.command.length).toNat = v.command.length := by
  obtain ⟨-, hle⟩ := State.command_le_windowLen hw
  obtain ⟨-, hsize⟩ := hs.cursor
  obtain ⟨⟨-, hcap⟩, -⟩ := Config.wf_capacities hs.config
  rw [BitVec.toNat_ofNat, Nat.mod_eq_of_lt]
  simp only [State.windowLen, State.dataEnd] at hle
  omega

include hs hb hw in
/-- CONSUME of the command's length ends the handling of it. -/
theorem exec_consume_served : exec (.consume (BitVec.ofNat 8 v.command.length)) (s.withCommandOut.pushed v.report) =
    .next (s.served v) := by
  have hout : (s.withCommandOut.pushed v.report).commandOut = true :=
    (State.commandOut_iff _).2 ⟨hb.enabled, hb.available, rfl⟩
  have hn := hs.toNat_command_length hw
  rw [exec_consume_inRange hout (by rw [hn]; exact State.command_le_windowLen (s := s) hw), hn, State.served,
    ← hb.waiting]
  rfl

include hs hb hw in
theorem runEvents_served (ha : s.cycAbandon = false) (hclass : headClassOf s.cfg v.opcode = .opaqueCmd)
    (hcode : v.code ≠ s.cfg.reportParamNoresp) (hq : s.txReportSize + v.report.length ≤ s.cfg.qMax) :
    runEvents v.events s = .next (s.served v) := by
  have hp := State.lt_dataEnd_of_command hw
  obtain ⟨_, hhead, -⟩ := State.window_eq_cons hp
  have hopcode : s.headOpcode = v.opcode := (List.cons.inj (hhead.symm.trans hw)).1
  have hget := hb.exec_getNext_opaque ha hp (le_trans (Nat.sub_le _ _) hs.cursor.2) (hopcode ▸ hclass)
  have hreport := runEvents_report (s := s.withCommandOut) (s.cmdPending_iff.2 ⟨hb.enabled, hb.available⟩) v hq hcode
  rw [Served.events_eq, runEvents, hget, andThen_next, runEvents_append, hreport, andThen_next, runEvents,
    exec_consume_served hs hb hw]
  rfl

end Serve

/-! ### The whole frame (R168, R177) -/

/-- At the end of a cycle that is not suppressed GET_NEXT flushes the response (R168). -/
theorem State.AtBoundary.exec_getNext_flush {s : State} (h : s.AtBoundary)
    (hend : s.cycAbandon = true ∨ s.dataEnd ≤ s.rxReadPtr) (hsup : s.suppresses = false)
    (hroom : s.txReportSize + 2 < s.cfg.txCap) : exec .getNext s = .next (s.released.flushed.answer .none) := by
  rw [h.exec_getNext_end hend]
  rcases endCycle_cases s with ⟨hyes, -⟩ | ⟨-, -, he⟩ | ⟨-, hfull, -⟩
  · exact absurd (hsup.symm.trans hyes) nofun
  · rw [he]; rfl
  · omega

/-- The latch of a flushed response holds its wire image. -/
theorem State.flushed_bytes (s : State) (h : 1 ≤ s.txReportSize) : s.flushed.bytes .ret 0 s.flushed.retLen =
    wireImage s.cfg (frameImage s.cfg.hostAddr (s.status :: s.bytes .tx 3 (s.txReportSize - 1))) := by
  obtain ⟨hbuf, hlen⟩ := s.flushed_latch h
  rw [hlen]
  exact State.bytes_of_writeList hbuf

/-- What a caller's handling of a frame of opaque commands leaves (R177). -/
structure State.ServedTo (s : State) (vs : List Served) (t : State) : Prop where
  windows : handedOut t.trace = handedOut s.trace ++ windowLengths vs
  answer : t.trace.head? = some (.answered .none)
  available : t.rxAvailable = false
  emitting : t.txEmitting = true
  response : t.bytes .ret 0 t.retLen = wireImage s.cfg (frameImage s.cfg.hostAddr
    (s.status :: (s.bytes .tx 3 (s.txReportSize - 1) ++ vs.flatMap Served.report)))

theorem windowLengths_length (vs : List Served) : (windowLengths vs).length = vs.length := by
  induction vs with
  | nil => rfl
  | cons v vs ih => rw [windowLengths, List.length_cons, ih, List.length_cons]

/-- The end of the frame: everything queued is sent. -/
theorem State.AtBoundary.servedTo_nil {s : State} (hb : s.AtBoundary) (hs : s.Inv) (hw : s.window = [])
    (hsup : s.suppresses = false) : ∃ t, exec .getNext s = .next t ∧ s.ServedTo [] t := by
  obtain ⟨-, ⟨htxMin, -⟩, hqMax, -⟩ := Config.wf_capacities hs.config
  obtain ⟨hpos, hq⟩ := hs.report
  have hend : s.dataEnd ≤ s.rxReadPtr := Nat.le_of_sub_eq_zero (State.windowLen_of_window hw)
  refine ⟨_, hb.exec_getNext_flush (.inr hend) hsup (by omega), ?_⟩
  constructor
  case windows =>
    rw [State.answer_trace, State.flushed_frame, windowLengths, List.append_nil]
    rfl
  case answer => rfl
  case available => rw [State.answer_rxAvailable, State.flushed_rxAvailable]; rfl
  case emitting => rw [State.answer_txEmitting, State.flushed_txEmitting]
  case response =>
    rw [List.flatMap_nil, List.append_nil]
    calc (s.released.flushed.answer .none).bytes .ret 0 (s.released.flushed.answer .none).retLen
        = s.released.flushed.bytes .ret 0 s.released.flushed.retLen :=
          State.bytes_of_mem (s := s.released.flushed) (t := s.released.flushed.answer .none) rfl rfl _ _
      _ = wireImage s.cfg (frameImage s.cfg.hostAddr (s.status :: s.released.bytes .tx 3 (s.txReportSize - 1))) :=
          s.released.flushed_bytes hpos
      _ = _ := by rw [State.bytes_of_mem (s := s) (t := s.released) rfl rfl]

theorem Served.events_not_head (v : Served) : ∀ i ∈ v.events, isCommandHead i = false := by
  simp only [Served.events_eq, List.mem_cons, List.mem_append, List.mem_map, List.not_mem_nil, or_false]
  rintro i (rfl | (rfl | ⟨b, -, rfl⟩) | rfl) <;> rfl

/-- Port events keep a good state good, one after the other. -/
theorem State.Inv.runEvents {l : List Instr} (hl : ∀ i ∈ l, isCommandHead i = false) : ∀ {s t : State}, s.Inv →
    runEvents l s = .next t → t.Inv := by
  induction l with
  | nil => intro s t hs ht; cases ht; exact hs
  | cons i l ih =>
    intro s t hs ht
    obtain ⟨u, hu, huinv⟩ := hs.exec (hl i List.mem_cons_self)
    rw [Machine.runEvents, hu, andThen_next] at ht
    exact ih (fun j hj => hl j (List.mem_cons_of_mem _ hj)) huinv ht

theorem State.served_suppresses (s : State) (v : Served) (h : 1 ≤ s.txReportSize) :
    (s.served v).suppresses = false := by
  rw [← Bool.not_eq_true, State.suppresses_iff]
  rintro ⟨-, hsize, -⟩
  rw [State.served_txReportSize, Served.report, List.length_cons] at hsize
  omega

/-- The commands of a frame, served one after the other, and the response to them. -/
theorem runEvents_serveEvents (vs : List Served) : ∀ {s : State}, s.Inv → s.AtBoundary → s.cycAbandon = false →
    (vs ≠ [] ∨ s.suppresses = false) → s.window = vs.flatMap Served.command →
    (∀ v ∈ vs, headClassOf s.cfg v.opcode = .opaqueCmd ∧ v.code ≠ s.cfg.reportParamNoresp) →
    s.txReportSize + (vs.flatMap Served.report).length ≤ s.cfg.qMax →
    ∃ t, runEvents (serveEvents vs) s = .next t ∧ s.ServedTo vs t := by
  induction vs with
  | nil =>
    intro s hs hb _ hsup hw _ _
    obtain ⟨t, ht, hserved⟩ := hb.servedTo_nil hs hw (hsup.resolve_left fun hne => hne rfl)
    exact ⟨t, by rw [serveEvents, List.flatMap_nil, List.nil_append, runEvents, ht]; rfl, hserved⟩
  | cons v vs ih =>
    intro s hs hb ha _ hw hvs hq
    rw [List.flatMap_cons] at hw hq
    rw [List.length_append] at hq
    obtain ⟨hclass, hcode⟩ := hvs v List.mem_cons_self
    have hpos := hs.report.1
    have hrun := runEvents_served hs hb hw ha hclass hcode (by omega)
    have hb' : (s.served v).AtBoundary := ⟨hb.enabled, hb.available, hb.waiting, hb.idle⟩
    obtain ⟨t, ht, hserved⟩ := ih (hs.runEvents v.events_not_head hrun) hb' ha (.inr (s.served_suppresses v hpos))
      (State.served_window hw) (fun w hmem => hvs w (List.mem_cons_of_mem _ hmem))
      (by rw [State.served_txReportSize, State.served_cfg]; omega)
    refine ⟨t, ?run, ?windows, hserved.answer, hserved.available, hserved.emitting, ?response⟩
    case run =>
      rw [serveEvents, List.flatMap_cons, List.append_assoc, runEvents_append, hrun]
      exact ht
    case windows =>
      rw [hserved.windows, State.served_handedOut, State.windowLen_of_window hw, List.append_assoc]
      rfl
    case response =>
      rw [hserved.response, s.served_queue v hpos, List.flatMap_cons, List.append_assoc]
      rfl

/-- Settles O34: by induction on the commands; with none served no reset was seen, so the response is flushed. -/
theorem multiplexedFrameIsServedCommandByCommand : Obligations.MultiplexedFrameIsServedCommandByCommand := by
  intro s vs hs he ha ho hidle hab hreset hw hvs hq
  have hsup : vs ≠ [] ∨ s.suppresses = false :=
    hreset.imp_right fun hr => by rw [State.suppresses, hr]; rfl
  obtain ⟨t, ht, hserved⟩ := runEvents_serveEvents vs hs ⟨he, ha, ho, hidle⟩ hab hsup hw hvs hq
  exact ⟨t, ht, hserved.windows, windowLengths_length vs, hserved.answer, hserved.available, hserved.emitting,
    hserved.response⟩

end Sys2Proof.Machine

/-! SUPPORT. The aggregator family (42_aggregator.md R200 to R205): what a push leaves, with room and without, and the queue
after any number of pushes. -/

namespace Sys2Proof.Machine

/-! ### One push (R200 to R203) -/

/-- After a push of `v` in a response cycle, answered NONE, that leaves `cyc_abandon` at `abandon`. -/
def State.afterPush (s : State) (v : Byte) (abandon : Bool) : State :=
  { s.append v with cycAbandon := abandon }.answer .none

theorem exec_pushReport_eq {s : State} (h : s.cmdPending = true) (c : Byte) :
    exec (.pushReport c) s = .next (s.afterPush c (s.cycAbandon || c == s.cfg.reportParamNoresp)) := by
  rw [State.afterPush, ← State.append_cycAbandon s c]
  exact if_pos h

theorem exec_pushData_eq {s : State} (h : s.cmdPending = true) (b : Byte) :
    exec (.pushData b) s = .next (s.afterPush b s.cycAbandon) := by
  rw [State.afterPush, ← State.append_cycAbandon s b]
  exact if_pos h

/-- A push leaves every register but the queue's and `cyc_abandon`, and every buffer but TX. -/
theorem State.afterPush_frame (s : State) (v : Byte) (abandon : Bool) :
    s.afterPush v abandon = { s with
      txBuf := (s.afterPush v abandon).txBuf
      txReportSize := (s.afterPush v abandon).txReportSize
      txOvf := (s.afterPush v abandon).txOvf
      cycAbandon := abandon
      trace := (s.afterPush v abandon).trace } := by
  rcases s.append_cases v with ⟨-, h⟩ | ⟨-, h⟩ <;> rw [State.afterPush, h] <;> rfl

theorem State.afterPush_cfg (s : State) (v : Byte) (abandon : Bool) : (s.afterPush v abandon).cfg = s.cfg := by
  rw [State.afterPush_frame]

theorem State.afterPush_cmdPending (s : State) (v : Byte) (abandon : Bool) :
    (s.afterPush v abandon).cmdPending = s.cmdPending := by
  rw [State.afterPush_frame]
  rfl

/-- A push queues its byte behind the queue, or drops it and sets `tx_ovf` (R200). -/
theorem State.afterPush_spec (s : State) (v : Byte) (abandon : Bool) :
    if s.txReportSize < s.cfg.qMax then
      (s.afterPush v abandon).byte .tx (2 + s.txReportSize) = v ∧
        (s.afterPush v abandon).txReportSize = s.txReportSize + 1 ∧ (s.afterPush v abandon).txOvf = s.txOvf ∧
        s.SameBytesBut (fun sp i => sp = .tx ∧ i = 2 + s.txReportSize) (s.afterPush v abandon) ∧
        (s.afterPush v abandon).trace = .answered .none :: s.trace
    else
      (s.afterPush v abandon).txReportSize = s.txReportSize ∧ (s.afterPush v abandon).txOvf = true ∧
        s.SameBytesBut (fun _ _ => False) (s.afterPush v abandon) ∧
        (s.afterPush v abandon).trace = .answered .none :: .raised (.txOverflow v) :: s.trace := by
  have hspec := s.append_spec v
  split
  case isTrue hroom =>
    rw [if_pos hroom] at hspec
    obtain ⟨hbyte, hsize, hovf, htrace, hsame⟩ := hspec
    exact ⟨hbyte, hsize, hovf, hsame, congrArg (Note.answered .none :: ·) htrace⟩
  case isFalse hfull =>
    rw [if_neg hfull] at hspec
    obtain ⟨hsize, hovf, htrace, hsame⟩ := hspec
    exact ⟨hsize, hovf, hsame, congrArg (Note.answered .none :: ·) htrace⟩

/-- Settles O35: a push that leaves `cyc_abandon` set where the code is REPORT_PARAM_NORESP. -/
theorem pushReportQueuesTheCode : Obligations.PushReportQueuesTheCode := by
  intro s c he ha
  exact ⟨_, exec_pushReport_eq (s.cmdPending_iff.2 ⟨he, ha⟩) c, s.afterPush_frame c _, s.afterPush_spec c _⟩

/-- Settles O36: a push that leaves `cyc_abandon` as it was. -/
theorem pushDataQueuesTheByte : Obligations.PushDataQueuesTheByte := by
  intro s b he ha
  exact ⟨_, exec_pushData_eq (s.cmdPending_iff.2 ⟨he, ha⟩) b, s.afterPush_frame b _, s.afterPush_spec b _⟩

/-! ### Any number of pushes (R205) -/

/-- The bytes queued, behind ADDR, LEN and status (R37). -/
def State.queue (s : State) : List Byte := s.bytes .tx 3 (s.txReportSize - 1)

theorem State.queue_length (s : State) : s.queue.length = s.txReportSize - 1 := State.bytes_length ..

theorem State.queue_congr {s t : State} (hm : t.txBuf = s.txBuf) (hd : t.draws = s.draws)
    (hq : t.txReportSize = s.txReportSize) : t.queue = s.queue := by
  rw [State.queue, State.queue, hq]
  exact State.bytes_of_mem (sp := .tx) hm hd _ _

/-- `t` holds the queue of `s` and the bytes of `l` behind it, cut off at `Q_MAX - 1` bytes, with `tx_ovf` set where one was
cut off; the response cycle goes on. -/
structure State.QueuedFirst (s : State) (l : List Byte) (t : State) : Prop where
  cfg : t.cfg = s.cfg
  pending : t.cmdPending = s.cmdPending
  size : t.txReportSize = min (s.txReportSize + l.length) s.cfg.qMax
  queue : t.queue = (s.queue ++ l).take (s.cfg.qMax - 1)
  overflow : t.txOvf = true ↔ s.txOvf = true ∨ s.cfg.qMax < s.txReportSize + l.length

/-- Before any push: a queue that fits is not cut off. -/
theorem State.QueuedFirst.nil {s : State} (hq : s.txReportSize ≤ s.cfg.qMax) : s.QueuedFirst [] s where
  cfg := rfl
  pending := rfl
  size := (Nat.min_eq_left hq).symm
  queue := by
    have hlen : s.queue.length ≤ s.cfg.qMax - 1 := s.queue_length.trans_le (Nat.sub_le_sub_right hq 1)
    rw [List.append_nil, List.take_of_length_le hlen]
  overflow := (or_iff_left (Nat.not_lt.2 hq)).symm

/-- What one list of pushes cut off stays cut off in the next: the queue is full then. -/
theorem State.QueuedFirst.trans {s u t : State} {l r : List Byte} (hl : s.QueuedFirst l u) (hr : u.QueuedFirst r t) :
    s.QueuedFirst (l ++ r) t where
  cfg := hr.cfg.trans hl.cfg
  pending := hr.pending.trans hl.pending
  size := by
    rw [hr.size, hl.size, hl.cfg, List.length_append]
    omega
  queue := by
    rw [hr.queue, hl.queue, hl.cfg, ← List.append_assoc]
    simp only [List.take_append (l₂ := r), List.take_take, Nat.min_self, List.length_take, List.append_cancel_left_eq,
      List.take_eq_take_iff]
    omega
  overflow := by
    rw [hr.overflow, hl.overflow, hl.size, hl.cfg, List.length_append, or_assoc]
    refine or_congr_right ?_
    omega

/-- One push (R200): with room its byte is the last of the queue, without room it is the one cut off. -/
theorem State.queuedFirst_afterPush {s : State} (hpos : 1 ≤ s.txReportSize) (hq : s.txReportSize ≤ s.cfg.qMax) (v : Byte)
    (abandon : Bool) : s.QueuedFirst [v] (s.afterPush v abandon) := by
  have hspec := s.afterPush_spec v abandon
  split at hspec
  case isTrue hroom =>
    obtain ⟨-, hsize, hovf, -, -⟩ := hspec
    have hqueue : (s.afterPush v abandon).queue = s.queue ++ [v] :=
      calc (s.afterPush v abandon).queue
          = ((s.append v).answer .none).queue := State.queue_congr rfl rfl rfl
        _ = (s.pushed [v]).queue := congrArg State.queue (State.append_answer_of_fits hroom v)
        _ = s.queue ++ [v] := s.pushed_queue [v] hpos
    have hlen : (s.queue ++ [v]).length ≤ s.cfg.qMax - 1 := by
      rw [List.length_append, State.queue_length, List.length_singleton]
      omega
    refine ⟨s.afterPush_cfg v abandon, s.afterPush_cmdPending v abandon, ?size, ?queue, ?overflow⟩
    case size => rw [hsize, List.length_singleton, Nat.min_eq_left hroom]
    case queue => rw [hqueue, List.take_of_length_le hlen]
    case overflow => rw [hovf, List.length_singleton, or_iff_left (Nat.not_lt.2 hroom)]
  case isFalse hfull =>
    obtain ⟨hsize, hovf, hsame, -⟩ := hspec
    have hqueue : (s.afterPush v abandon).queue = s.queue := by
      rw [State.queue, hsize]
      exact State.bytes_congr fun k _ => hsame _ _ id
    have hlen : s.queue.length = s.cfg.qMax - 1 := by
      rw [State.queue_length]
      omega
    refine ⟨s.afterPush_cfg v abandon, s.afterPush_cmdPending v abandon, ?size, ?queue, ?overflow⟩
    case size =>
      rw [hsize, List.length_singleton]
      omega
    case queue => rw [hqueue, ← hlen, List.take_left]
    case overflow => exact iff_of_true hovf (.inr (Nat.lt_succ_of_le (Nat.not_lt.1 hfull)))

/-- A report code and a result byte are queued alike (R201, R202). -/
theorem exec_push {s : State} (h : s.cmdPending = true) (isReport : Bool) (v : Byte) :
    ∃ abandon, exec (if isReport then .pushReport v else .pushData v) s = .next (s.afterPush v abandon) := by
  cases isReport with
  | true => exact ⟨_, exec_pushReport_eq h v⟩
  | false => exact ⟨_, exec_pushData_eq h v⟩

theorem runEvents_pushEvents (pushes : List (Bool × Byte)) : ∀ {s : State}, s.cmdPending = true → 1 ≤ s.txReportSize →
    s.txReportSize ≤ s.cfg.qMax →
    ∃ t, runEvents (pushEvents pushes) s = .next t ∧ s.QueuedFirst (pushes.map Prod.snd) t := by
  induction pushes with
  | nil => exact fun _ _ hq => ⟨_, rfl, .nil hq⟩
  | cons p pushes ih =>
    intro s h hpos hq
    obtain ⟨abandon, hexec⟩ := exec_push h p.1 p.2
    have hfirst := State.queuedFirst_afterPush hpos hq p.2 abandon
    have hsize := hfirst.size
    obtain ⟨t, ht, hrest⟩ := ih (hfirst.pending.trans h) (by omega) (by rw [hfirst.cfg]; omega)
    refine ⟨t, ?_, hfirst.trans hrest⟩
    rw [pushEvents, List.map_cons, runEvents, hexec]
    exact ht

/-- Settles O37: by induction on the pushes, each of which keeps the first bytes of the queue and its own byte. -/
theorem queueKeepsTheFirstBytesPushed : Obligations.QueueKeepsTheFirstBytesPushed := by
  intro s pushes he ha hpos hq
  obtain ⟨t, ht, hqueued⟩ := runEvents_pushEvents pushes (s.cmdPending_iff.2 ⟨he, ha⟩) hpos hq
  have hsize := hqueued.size
  have hovf := hqueued.overflow
  rw [List.length_map] at hsize hovf
  exact ⟨t, ht, hsize, hqueued.queue, hovf⟩

end Sys2Proof.Machine

/-! SUPPORT. The transmitter family (43_transmitter.md R220 to R243; O8, O20, O21, O38 to O42): the status, one TX_EMIT and a
drain, the flush at the end of a cycle, the response as a receiver sees it, and what an event can do to the retry latch. -/

namespace Sys2Proof

/-- R8 (7): the four status codes differ. -/
theorem Config.wf_statusCodes {c : Config} (h : c.wf = true) :
    [c.statusNormal, c.statusUnknown, c.statusSumError, c.statusOverflow].Nodup := by
  obtain ⟨-, -, -, -, -, -, hcodes⟩ := c.wf_iff.1 h
  rw [Config.codesDistinct, Bool.and_eq_true, decide_eq_true_eq] at hcodes
  exact hcodes.1

/-- R8 (3): the host's address is neither broadcast nor assignable. -/
theorem Config.wf_hostAddr {c : Config} (h : c.wf = true) :
    c.hostAddr ≠ c.broadcast ∧ c.addrInRange c.hostAddr = false := by
  obtain ⟨-, -, haddr, -⟩ := c.wf_iff.1 h
  simp only [Config.addressesOk, Bool.and_eq_true, bne_iff_ne, Bool.not_eq_true'] at haddr
  obtain ⟨⟨⟨hne, -⟩, hhost⟩, -⟩ := haddr
  exact ⟨hne.symm, hhost⟩

end Sys2Proof

namespace Sys2Proof.Machine

/-! ### The status (R222) -/

section Status

variable {s : State}

theorem State.status_unknown (h : s.cycUnknown = true) : s.status = s.cfg.statusUnknown := if_pos h

theorem State.status_overflow (hunknown : s.cycUnknown = false) (h : s.txOvf = true ∨ s.rxOvfPending = true) :
    s.status = s.cfg.statusOverflow :=
  (if_neg (Bool.eq_false_iff.1 hunknown)).trans (if_pos ((Bool.or_eq_true _ _).mpr h))

theorem State.status_normal (hunknown : s.cycUnknown = false) (htx : s.txOvf = false) (hrx : s.rxOvfPending = false) :
    s.status = s.cfg.statusNormal :=
  (if_neg (Bool.eq_false_iff.1 hunknown)).trans (if_neg (by rw [htx, hrx]; nofun))

end Status

/-- A response has one of three statuses. -/
theorem State.status_cases (s : State) :
    s.status = s.cfg.statusUnknown ∨ s.status = s.cfg.statusOverflow ∨ s.status = s.cfg.statusNormal := by
  unfold State.status
  split
  · exact .inl rfl
  · split
    · exact .inr (.inl rfl)
    · exact .inr (.inr rfl)

theorem State.status_ne_sumError {s : State} (h : s.cfg.wf = true) : s.status ≠ s.cfg.statusSumError := by
  have hcodes := Config.wf_statusCodes h
  simp only [List.nodup_cons, List.mem_cons, List.not_mem_nil, or_false, not_or] at hcodes
  obtain ⟨⟨-, hnormal, -⟩, ⟨hunknown, -⟩, hoverflow, -⟩ := hcodes
  rcases s.status_cases with he | he | he <;> rw [he]
  · exact hunknown
  · exact Ne.symm hoverflow
  · exact hnormal

/-- Settles O21: the three branches of the status, none of which gives the sum error of a well-formed configuration. -/
theorem statusHasThePriorityOfTheSpec : Obligations.StatusHasThePriorityOfTheSpec :=
  fun _ hwf => ⟨State.status_unknown, State.status_overflow, State.status_normal, State.status_ne_sumError hwf⟩

/-! ### One TX_EMIT (R240, R241) -/

/-- After one byte has been taken from the latch. -/
def State.emittedOne (s : State) : State :=
  { s with txEmitPtr := s.txEmitPtr + 1, txEmitting := decide (s.txEmitPtr + 1 ≠ s.retLen) }.emit (s.byte .ret s.txEmitPtr)

theorem exec_txEmit_emitting {s : State} (h : s.txEmitting = true) (hp : s.txEmitPtr < s.cfg.retCap) :
    exec .txEmit s = .next s.emittedOne :=
  show execTxEmit s = _ from (if_pos h).trans (if_pos ((s.hasIndex_iff .ret _).2 hp))

theorem exec_txEmit_idle {s : State} (h : s.txEmitting = false) : exec .txEmit s = .next s :=
  show execTxEmit s = _ from if_neg (Bool.eq_false_iff.1 h)

/-- Settles O38: `tx_valid` and `tx_de` show the emission, and `tx_data` the byte at its cursor. -/
theorem txEmitEmitsOneByte : Obligations.TxEmitEmitsOneByte := by
  refine fun s => ⟨fun h hp => ⟨exec_txEmit_emitting h hp, h, h, if_pos h⟩, fun h => ?idle⟩
  have hheld : held .txEmit s = true := by rw [held, h, Bool.not_false]
  exact ⟨exec_txEmit_idle h, hheld, h, h⟩

/-! ### Taking every byte offered (R227, R241, R351) -/

/-- After the `n` bytes from the emission cursor on have been taken, of which the last ends the emission. -/
def State.drained (s : State) (n : Nat) : State :=
  { s with
    txEmitPtr := s.txEmitPtr + n
    txEmitting := false
    trace := ((s.bytes .ret s.txEmitPtr n).map .emitted).reverse ++ s.trace }

theorem emittedBytes_reverse_map_emitted (l : List Byte) : ∀ trace : List Note,
    emittedBytes ((l.map .emitted).reverse ++ trace) = emittedBytes trace ++ l := by
  induction l with
  | nil => intro trace; exact (List.append_nil _).symm
  | cons b l ih =>
    intro trace
    rw [List.map_cons, List.reverse_cons, List.append_assoc, ih]
    exact List.append_assoc (emittedBytes trace) [b] l

/-- Draining what is left behind the first byte drains the whole. -/
theorem State.emittedOne_drained (s : State) (n : Nat) : s.emittedOne.drained n = s.drained (n + 1) := by
  have hbytes : s.emittedOne.bytes .ret (s.txEmitPtr + 1) n = s.bytes .ret (s.txEmitPtr + 1) n :=
    State.bytes_of_mem (s := s) (t := s.emittedOne) rfl rfl _ _
  have hptr : s.emittedOne.txEmitPtr = s.txEmitPtr + 1 := rfl
  rw [State.drained, hptr, hbytes, State.drained, State.bytes, List.map_cons, List.reverse_cons, List.append_assoc,
    Nat.add_right_comm, Nat.add_assoc]
  rfl

theorem runEvents_txEmit (n : Nat) : ∀ {s : State}, s.txEmitting = true → s.txEmitPtr + (n + 1) = s.retLen →
    s.retLen ≤ s.cfg.retCap → runEvents (List.replicate (n + 1) .txEmit) s = .next (s.drained (n + 1)) := by
  induction n with
  | zero =>
    intro s h hlen hcap
    have hlast : s.emittedOne = s.drained 1 := by
      rw [State.emittedOne, decide_eq_false (not_not.2 hlen)]
      rfl
    rw [List.replicate_one, runEvents, exec_txEmit_emitting h (by omega), hlast]
    rfl
  | succ n ih =>
    intro s h hlen hcap
    have hmore : s.emittedOne.txEmitting = true := decide_eq_true (show s.txEmitPtr + 1 ≠ s.retLen by omega)
    have hrest : s.emittedOne.txEmitPtr + (n + 1) = s.emittedOne.retLen :=
      show s.txEmitPtr + 1 + (n + 1) = s.retLen by omega
    rw [List.replicate_succ, runEvents, exec_txEmit_emitting h (by omega), andThen_next, ih hmore hrest hcap,
      State.emittedOne_drained]

/-- Settles O39: in a good state the cursor is short of the retained length, which the latch can hold. -/
theorem drainEmitsTheRetainedResponse : Obligations.DrainEmitsTheRetainedResponse := by
  intro s hs h
  obtain ⟨-, hp⟩ := hs.latch.1 h
  obtain ⟨n, hn⟩ : ∃ n, s.retLen - s.txEmitPtr = n + 1 := ⟨s.retLen - s.txEmitPtr - 1, by omega⟩
  have hevents : drainEvents s = List.replicate (s.retLen - s.txEmitPtr) .txEmit := if_pos h
  have hend : s.txEmitPtr + (n + 1) = s.retLen := by omega
  rw [hevents, hn]
  refine ⟨_, runEvents_txEmit n h hend hs.ranges.2, List.length_replicate, emittedBytes_reverse_map_emitted _ _, ?_⟩
  rw [State.drained, hend]

/-! ### The flush at the end of a cycle (R220 to R226, R168) -/

/-- Assembly writes ADDR, LEN, the status and the checksum, and no byte besides (R221, R223). -/
theorem State.assemble_sameBytesBut (s : State) (st : Byte) :
    s.SameBytesBut (fun sp i => sp = .tx ∧ (i < 3 ∨ i = s.txReportSize + 2)) (s.assemble st) := by
  intro sp i hout
  have hother {j : Nat} (hj : j < 3 ∨ j = s.txReportSize + 2) : sp ≠ .tx ∨ i ≠ j :=
    or_iff_not_imp_left.2 fun hsp hi => hout ⟨not_not.1 hsp, hi ▸ hj⟩
  unfold State.assemble
  dsimp only
  rw [State.byte_store_other _ _ (hother (.inr rfl)), State.byte_store_other _ _ (hother (.inl (by decide))),
    State.byte_store_other _ _ (hother (.inl (by decide))), State.byte_store_other _ _ (hother (.inl (by decide)))]

/-- The state a flush latches: the pending overflow settled, the frame assembled (R220 to R223). -/
def State.assembled (s : State) : State := (s.settleOverflow s.status).assemble s.status

theorem State.flushed_eq_latch (s : State) : s.flushed =
    ((s.assembled.latch s.assembled.txImage).clearCycle).raise (.responseFlushed s.status s.txReportSize) := rfl

theorem State.flushed_trace (s : State) :
    s.flushed.trace = .raised (.responseFlushed s.status s.txReportSize) :: s.trace :=
  congrArg State.trace s.flushed_frame

/-- A flush writes the bytes of the assembled frame that are no reports, and the response (R220). -/
theorem State.flushed_sameBytesBut (s : State) :
    s.SameBytesBut (fun sp i => (sp = .ret ∧ i < s.flushed.retLen) ∨ (sp = .tx ∧ (i < 3 ∨ i = s.txReportSize + 2)))
      s.flushed := by
  intro sp i hout
  rw [not_or] at hout
  calc s.flushed.byte sp i
      = (s.assembled.latch s.assembled.txImage).byte sp i := by
        rw [State.flushed_eq_latch, State.byte_raise, State.byte_clearCycle]
    _ = s.assembled.byte sp i := s.assembled.latch_sameBytesBut _ sp i hout.1
    _ = (s.settleOverflow s.status).byte sp i := State.assemble_sameBytesBut _ _ sp i hout.2
    _ = s.byte sp i := s.byte_settleOverflow s.status sp i

/-- With no command handed out the release of the frame is `rx_available` alone. -/
theorem State.released_of_waiting {s : State} (h : s.cmdOutstanding = false) :
    s.released = { s with rxAvailable := false } := by
  cases s
  cases h
  rfl

/-- Settles O20: the cycle ends in a flush, for which the queue leaves room. -/
theorem endOfCycleFlushesTheResponse : Obligations.EndOfCycleFlushesTheResponse := by
  intro s hwf he ha ho hidle hend hsup hpos hq response
  obtain ⟨-, ⟨htxMin, -⟩, hqMax, -⟩ := Config.wf_capacities hwf
  rw [← s.suppresses_iff, Bool.not_eq_true] at hsup
  have hflush := State.AtBoundary.exec_getNext_flush ⟨he, ha, ho, hidle⟩ hend hsup (by omega)
  have hlatch := s.released.flushed_latch hpos
  rw [State.bytes_of_mem (s := s) (t := s.released) rfl rfl] at hlatch
  obtain ⟨hbuf, hlen⟩ : s.released.flushed.retBuf = s.retBuf.writeList 0 response ∧
    s.released.flushed.retLen = response.length := hlatch
  refine ⟨_, hflush, State.bytes_of_writeList (m := s.retBuf) hbuf, fun sp i hout => ?other, ?frame, ?overflow⟩
  case other =>
    rw [← hlen] at hout
    rw [State.byte_answer]
    exact (s.released.flushed_sameBytesBut sp i hout).trans (s.byte_released sp i)
  case frame =>
    have hframe := s.released.flushed_frame
    rw [hlen] at hframe
    generalize s.released.flushed = t at hframe ⊢
    rw [hframe, State.released_of_waiting ho]
    rfl
  case overflow =>
    have hpending : (s.released.flushed.answer .none).rxOvfPending = (s.rxOvfPending && s.status != s.cfg.statusOverflow) :=
      congrArg State.rxOvfPending s.released.flushed_frame
    rw [hpending, Bool.and_eq_true, bne_iff_ne]

/-! ### The response at a receiver (R133, R242) -/

/-- A device does not take the host's address for its own (R8 (3), R48 (6), R129). -/
theorem State.Inv.not_accepts_hostAddr {s : State} (h : s.Inv) : s.accepts s.cfg.hostAddr = false := by
  obtain ⟨hbroadcast, hrange⟩ := Config.wf_hostAddr h.config
  rw [← Bool.not_eq_true, s.accepts_iff]
  rintro (hb | ⟨hne, hdev⟩)
  · exact hbroadcast hb
  · have haddr := h.address.resolve_left hne
    rw [← hdev, hrange] at haddr
    cases haddr

/-- Settles O8: the image is received to its end, where the sum is right and the address is not this device's. -/
theorem responsePassesTheReceiversChecksum : Obligations.ResponsePassesTheReceiversChecksum := by
  intro r status reports hr he ha hidle hfits image
  obtain ⟨head, hhead⟩ : ∃ head, head =
      r.cfg.hostAddr :: BitVec.ofNat 8 ((status :: reports).length + 1) :: status :: reports := ⟨_, rfl⟩
  have himage : image = head ++ [sum8 head] := by rw [hhead]; rfl
  have hlen : head.length = (status :: reports).length + 2 := by rw [hhead]; rfl
  have hrun := runEvents_wireImage hr.config he ha hidle (a := r.cfg.hostAddr) (sum8 head)
    (toNat_len_of_fits hr.config (n := (status :: reports).length) hfits) hfits
  rw [← hhead, ← himage, ← hlen] at hrun
  have hsum : sum8 ((r.withStored image).bytes .rx 0 head.length) = sum8 head := by
    rw [himage, State.withStored_bytes]
  have haddr : (r.withStored image).byte .rx 0 = r.cfg.hostAddr := by
    rw [himage, hhead]
    exact r.withStored_byte_zero _ _
  have hother : (r.withStored image).accepts ((r.withStored image).byte .rx 0) = false := by
    rw [haddr]
    exact hr.not_accepts_hostAddr
  have hstored : (r.withStored image).bytes .rx 0 image.length = image := by
    simpa using r.withStored_bytes image []
  rw [rxCompleted_addrMismatch hsum hother, haddr] at hrun
  refine ⟨_, hrun, ?_, rfl, ha, rfl⟩
  refine (State.bytes_of_mem (s := r.withStored image) ?_ ?_ 0 _).trans hstored <;> rfl

/-! ### What an event leaves of the retry latch (R231, R243) -/

/-- The retained response and the draw of its unwritten bytes stay. -/
structure State.SameRetained (s t : State) : Prop extends s.SameLatch t where
  retValid : t.retValid = s.retValid
  draws : t.draws = s.draws

theorem State.SameRetained.trans {s t u : State} (h : s.SameRetained t) (k : t.SameRetained u) : s.SameRetained u :=
  ⟨⟨k.retBuf.trans h.retBuf, k.retLen.trans h.retLen⟩, k.retValid.trans h.retValid, k.draws.trans h.draws⟩

/-- Nothing is done to the retained response: it stays, no emission starts, and the trace goes on. -/
structure State.NoResponse (s t : State) : Prop extends s.SameRetained t where
  emitting : t.txEmitting = true → s.txEmitting = true
  trace : s.trace <:+ t.trace

theorem State.NoResponse.trans {s t u : State} (h : s.NoResponse t) (k : t.NoResponse u) : s.NoResponse u :=
  ⟨h.toSameRetained.trans k.toSameRetained, fun hu => h.emitting (k.emitting hu), h.trace.trans k.trace⟩

/-- An update of registers outside the transmitter, with the entries it adds to the trace. -/
theorem State.NoResponse.of_eq {s t : State} (new : List Note) (ht : t = { t with
      retBuf := s.retBuf, retLen := s.retLen, retValid := s.retValid, draws := s.draws, txEmitting := s.txEmitting
      trace := new ++ s.trace }) : s.NoResponse t := by
  rw [ht]
  exact ⟨⟨⟨rfl, rfl⟩, rfl, rfl⟩, id, List.suffix_append _ _⟩

theorem State.NoResponse.refl (s : State) : s.NoResponse s := .of_eq [] rfl

theorem State.NoResponse.noteReady {s t : State} (h : s.NoResponse t) (o : State) : s.NoResponse (o.noteReady t) :=
  h.trans (.of_eq (o.readyCalls t) rfl)

theorem State.append_noResponse (s : State) (v : Byte) : s.NoResponse (s.append v) := by
  rcases s.append_cases v with ⟨-, h⟩ | ⟨-, h⟩ <;> rw [h]
  · exact .of_eq [] rfl
  · exact .of_eq [_] rfl

theorem State.resetHead_noResponse (s : State) (arg : Option Byte) : s.NoResponse (s.resetHead arg) := by
  rcases s.resetHead_cases arg with ⟨-, h⟩ | ⟨-, h⟩ <;> rw [h]
  · exact .of_eq [] rfl
  · exact .of_eq [_] rfl

theorem State.setaddrHead_noResponse (s : State) (arg : Option Byte) : s.NoResponse (s.setaddrHead arg) := by
  rcases s.setaddrHead_cases arg with ⟨-, h⟩ | ⟨a, -, -, h⟩ | ⟨a, -, -, h⟩ <;> rw [h]
  · exact .of_eq [_] rfl
  · have hready : s.NoResponse ({ s with devAddr := a }.driveReady true) := .of_eq [] rfl
    exact hready.trans ((State.append_noResponse _ _).trans (.of_eq [] rfl))
  · exact (s.append_noResponse _).trans (.of_eq [] rfl)

theorem rxStore_noResponse {s t : State} {b : Byte} (h : rxStore b s = .next t) : s.NoResponse t := by
  obtain ⟨-, rfl⟩ := rxStore_next h
  rcases rxClassify_cases (unescaped s.rxEscaping b) s.rxSize (rxPut b s) with
    ⟨ovf, c, he⟩ | ⟨he, -, -⟩ | ⟨-, -, -, -, he⟩ <;> rw [he]
  · exact .of_eq [_] rfl
  · exact .of_eq [] rfl
  · exact .of_eq [_] rfl

/-- The transmit event reads the latch, and only ends an emission (R240, R241). -/
theorem execTxEmit_noResponse {s t : State} (h : execTxEmit s = .next t) : s.NoResponse t := by
  rcases execTxEmit_next h with ⟨hemit, -, rfl⟩ | ⟨-, rfl⟩
  · exact ⟨⟨⟨rfl, rfl⟩, rfl, rfl⟩, fun _ => hemit, List.suffix_cons _ _⟩
  · exact .refl _

/-- What an event can do to the transmitter: nothing to the retained response; walk the frame; retry; or re-initialise it,
which leaves nothing being emitted. -/
inductive Transmitting (s : State) : Instr → State → Prop where
  | nothing {i : Instr} {t : State} (ht : s.NoResponse t) : Transmitting s i t
  | walked {n : Nat} {u : State} (hu : walk n s = .next u) : Transmitting s .getNext (s.noteReady u)
  | retried {t : State} (ht : execRetry s = .next t) : Transmitting s .retry t
  | reinitialised {i : Instr} {t : State} (hi : i = .beginOp ∨ i = .endOp ∨ i = .rst) (ht : t.txEmitting = false) :
      Transmitting s i t

theorem transmitting_getNext {s t : State} (h : execGetNext s = .next t) : Transmitting s .getNext t := by
  rcases execGetNext_next h with
    ⟨-, rfl⟩ | ⟨-, -, rfl⟩ | ⟨-, -, -, rfl⟩ | ⟨-, -, -, -, rfl⟩ | ⟨-, -, -, -, u, hu, rfl⟩
  · exact .nothing (.of_eq [_, _] rfl)
  · exact .nothing (.of_eq [_] rfl)
  · exact .nothing (.of_eq [_] rfl)
  · exact .nothing (.refl _)
  · exact .walked hu

theorem transmitting_end {s t : State} (h : execEnd s = .next t) : Transmitting s .endOp t := by
  rcases execEnd_next h with ⟨-, rfl⟩ | ⟨-, rfl⟩
  · exact .reinitialised (.inr (.inl rfl)) rfl
  · exact .nothing (.of_eq [_, _] rfl)

theorem execConsume_noResponse {s t : State} {n : Byte} (h : execConsume n s = .next t) : s.NoResponse t := by
  rcases execConsume_next h with ⟨-, -, -, rfl⟩ | ⟨-, rfl⟩ | rfl
  · exact .of_eq [_] rfl
  · exact .of_eq [_, _] rfl
  · exact .of_eq [_, _] rfl

theorem execUnknownCmd_noResponse {s t : State} (h : execUnknownCmd s = .next t) : s.NoResponse t := by
  rcases execUnknownCmd_next h with ⟨-, rfl⟩ | rfl <;> exact .of_eq [_, _] rfl

theorem execPushReport_noResponse {s t : State} {c : Byte} (h : execPushReport c s = .next t) : s.NoResponse t := by
  rcases execPushReport_next h with ⟨-, -, rfl⟩ | rfl
  · exact (s.append_noResponse c).trans (.of_eq [_] rfl)
  · exact .of_eq [_, _] rfl

theorem execPushData_noResponse {s t : State} {b : Byte} (h : execPushData b s = .next t) : s.NoResponse t := by
  rcases execPushData_next h with ⟨-, -, rfl⟩ | rfl
  · exact (s.append_noResponse b).trans (.of_eq [_] rfl)
  · exact .of_eq [_, _] rfl

theorem execRxSync_noResponse {s t : State} (h : execRxSync s = .next t) : s.NoResponse t := by
  rcases execRxSync_next h with rfl | ⟨-, -, rfl | ⟨-, ht⟩⟩
  · exact .refl _
  · exact .of_eq [] rfl
  · exact rxStore_noResponse ht

theorem execRxMark_noResponse {s t : State} (h : execRxMark s = .next t) : s.NoResponse t := by
  rcases execRxMark_next h with rfl | ⟨-, -, -, rfl⟩ <;> exact .of_eq [] rfl

theorem execRxData_noResponse {s t : State} {b : Byte} (h : execRxData b s = .next t) : s.NoResponse t := by
  rcases execRxData_next h with rfl | ⟨-, -, -, ht⟩
  · exact .refl _
  · exact rxStore_noResponse ht

theorem execOpaque_noResponse {s t : State} {op : Byte} (h : execOpaque op s = .next t) : s.NoResponse t := by
  cases h
  exact .of_eq [_] rfl

/-- Every event and every command head does one of these. -/
theorem exec_transmitting {s t : State} {i : Instr} (h : exec i s = .next t) : Transmitting s i t := by
  cases i with
  | nop => cases h; exact .nothing (.of_eq [_] rfl)
  | getNext => exact transmitting_getNext h
  | consume n => exact .nothing (execConsume_noResponse h)
  | pushReport c => exact .nothing (execPushReport_noResponse h)
  | pushData b => exact .nothing (execPushData_noResponse h)
  | beginOp => cases h; exact .reinitialised (.inl rfl) rfl
  | endOp => exact transmitting_end h
  | unknownCmd => exact .nothing (execUnknownCmd_noResponse h)
  | rxSync => exact .nothing (execRxSync_noResponse h)
  | rxMark => exact .nothing (execRxMark_noResponse h)
  | rxData b => exact .nothing (execRxData_noResponse h)
  | txEmit => exact .nothing (execTxEmit_noResponse h)
  | reset arg => cases h; exact .nothing ((s.resetHead_noResponse arg).noteReady s)
  | setaddr a => cases h; exact .nothing ((s.setaddrHead_noResponse a).noteReady s)
  | retry => exact .retried h
  | opaqueCmd op => exact .nothing (execOpaque_noResponse (op := op) h)
  | rst => cases h; exact .reinitialised (.inr (.inr rfl)) rfl

/-- Settles O42: of the events that an agent offers only GET_NEXT walks, and none retries. -/
theorem emissionStartsOnlyInGetNext : Obligations.EmissionStartsOnlyInGetNext := by
  intro s t o h hs ht
  have hne := decodeOffer_ne_retry s.cfg o
  generalize decodeOffer s.cfg o = i at h hne ⊢
  cases exec_transmitting h with
  | nothing hno => exact absurd (hs.symm.trans (hno.emitting ht)) nofun
  | walked _ => rfl
  | retried _ => exact absurd rfl hne
  | reinitialised _ hidle => exact absurd (hidle.symm.trans ht) nofun

/-! ### A fresh response is recorded (R231; log entry 7) -/

/-- The trace goes on, and either the retained response stays or the entries added record a fresh one: a flush, or, where
nothing was retained, an empty retry. -/
def State.RecordsFresh (s t : State) : Prop :=
  ∃ new, t.trace = new ++ s.trace ∧
    (s.SameRetained t ∨ (∃ st q, .raised (.responseFlushed st q) ∈ new) ∨
      (.raised .retryEmpty ∈ new ∧ s.retValid = false))

theorem State.NoResponse.recordsFresh {s t : State} (h : s.NoResponse t) : s.RecordsFresh t := by
  obtain ⟨new, hnew⟩ := h.trace
  exact ⟨new, hnew.symm, .inl h.toSameRetained⟩

/-- What either of two runs records, the two together record. -/
theorem State.RecordsFresh.trans {s t u : State} (h : s.RecordsFresh t) (k : t.RecordsFresh u) : s.RecordsFresh u := by
  obtain ⟨new, htrace, hfresh⟩ := h
  obtain ⟨more, ktrace, kfresh⟩ := k
  refine ⟨more ++ new, by rw [ktrace, htrace, List.append_assoc], ?_⟩
  rcases hfresh with hsame | ⟨st, q, hin⟩ | ⟨hin, hv⟩
  · rcases kfresh with ksame | ⟨st, q, kin⟩ | ⟨kin, kv⟩
    · exact .inl (hsame.trans ksame)
    · exact .inr (.inl ⟨st, q, List.mem_append_left _ kin⟩)
    · exact .inr (.inr ⟨List.mem_append_left _ kin, hsame.retValid.symm.trans kv⟩)
  · exact .inr (.inl ⟨st, q, List.mem_append_right _ hin⟩)
  · exact .inr (.inr ⟨List.mem_append_right _ hin, hv⟩)

/-- A suppressed cycle leaves the latch; any other is flushed (R168, R220). -/
theorem endCycle_recordsFresh {s t : State} (h : andThen (endCycle s) answerNone = .next t) : s.RecordsFresh t := by
  rcases endCycle_next h with ⟨rfl, -⟩ | ⟨rfl, -, -⟩
  · exact State.NoResponse.recordsFresh (.of_eq [_, _] rfl)
  · exact ⟨[.answered .none, .raised (.responseFlushed s.status s.txReportSize)],
      congrArg (Note.answered .none :: ·) s.released.flushed_trace,
      .inr (.inl ⟨_, _, List.mem_cons_of_mem _ List.mem_cons_self⟩)⟩

/-- A retry leaves the latch where a response is retained (R228), and else records that none was (R229). -/
theorem execRetry_recordsFresh {s t : State} (h : execRetry s = .next t) : s.RecordsFresh t := by
  rw [execRetry_next h]
  cases hv : s.retValid with
  | true =>
    rw [State.retransmit_retained (s := s.released.clearCycle) hv]
    exact ⟨[_, _], rfl, .inl ⟨⟨rfl, rfl⟩, rfl, rfl⟩⟩
  | false =>
    rw [State.retransmit_empty (s := s.released.clearCycle) hv]
    exact ⟨[_, _], rfl, .inr (.inr ⟨List.mem_cons_of_mem _ List.mem_cons_self, hv⟩)⟩

theorem walk_recordsFresh {s t : State} {n : Nat} (h : walk n s = .next t) : s.RecordsFresh t :=
  walk_relation (Pre := fun _ => True) (R := State.RecordsFresh)
    (fun s _ => (State.NoResponse.refl s).recordsFresh) (fun _ _ _ => State.RecordsFresh.trans)
    (fun _ _ _ hend => endCycle_recordsFresh hend)
    (fun s _ _ _ _ => ⟨(s.resetHead_noResponse _).recordsFresh, trivial⟩)
    (fun s _ _ _ _ => ⟨(s.setaddrHead_noResponse _).recordsFresh, trivial⟩)
    (fun _ _ _ hretry => execRetry_recordsFresh hretry)
    (fun _ _ _ _ _ hop => (execOpaque_noResponse hop).recordsFresh) n s t trivial h

theorem exec_recordsFresh {s t : State} {i : Instr} (h : exec i s = .next t)
    (hi : i ≠ .beginOp ∧ i ≠ .endOp ∧ i ≠ .rst) : s.RecordsFresh t := by
  obtain ⟨hbegin, hend, hrst⟩ := hi
  cases exec_transmitting h with
  | nothing hno => exact hno.recordsFresh
  | walked hu => exact (walk_recordsFresh hu).trans ((State.NoResponse.refl _).noteReady s).recordsFresh
  | retried ht => exact execRetry_recordsFresh ht
  | reinitialised hre _ => exact absurd hre (by simp [hbegin, hend, hrst])

/-- Settles O41: the entries by which the trace goes on record a fresh response, if there is one. -/
theorem retryLatchChangesOnlyWithAFreshResponse : Obligations.RetryLatchChangesOnlyWithAFreshResponse := by
  intro s t i h hbegin hend hrst
  obtain ⟨new, htrace, hsame | hflushed | ⟨hempty, -⟩⟩ := exec_recordsFresh h ⟨hbegin, hend, hrst⟩
  · exact .inl ⟨hsame.retBuf, hsame.retLen, hsame.retValid⟩
  · exact .inr ⟨new, htrace, .inr hflushed⟩
  · exact .inr ⟨new, htrace, .inl hempty⟩

/-! ### Two retries (R230) -/

theorem runEvents_recordsFresh {l : List Instr} (hl : ∀ i ∈ l, i ≠ .beginOp ∧ i ≠ .endOp ∧ i ≠ .rst) :
    ∀ {s t : State}, runEvents l s = .next t → s.RecordsFresh t := by
  induction l with
  | nil => intro s t h; cases h; exact (State.NoResponse.refl s).recordsFresh
  | cons i l ih =>
    intro s t h
    obtain ⟨u, hu, ht⟩ := andThen_eq_next h
    exact (exec_recordsFresh hu (hl i List.mem_cons_self)).trans (ih (fun j hj => hl j (List.mem_cons_of_mem _ hj)) ht)

/-- Events that record no flush keep a retained response: no retry among them is empty. -/
theorem State.RecordsFresh.sameRetained {s t : State} (h : s.RecordsFresh t) {new : List Note}
    (hnew : t.trace = new ++ s.trace) (hno : ∀ st q, .raised (.responseFlushed st q) ∉ new) (hv : s.retValid = true) :
    s.SameRetained t := by
  obtain ⟨gained, htrace, hfresh⟩ := h
  obtain rfl : gained = new := List.append_cancel_right (htrace.symm.trans hnew)
  rcases hfresh with hsame | ⟨st, q, hin⟩ | ⟨-, hempty⟩
  · exact hsame
  · exact absurd hin (hno st q)
  · exact absurd (hempty.symm.trans hv) nofun

/-- A retry offers a retained response from its first byte, one it found or one it made (R228, R229). -/
theorem exec_retry_offers {s t : State} (h : exec .retry s = .next t) :
    t.retValid = true ∧ t.txEmitting = true ∧ t.txEmitPtr = 0 := by
  rw [execRetry_next h]
  cases hv : s.retValid with
  | true =>
    rw [State.retransmit_retained (s := s.released.clearCycle) hv]
    exact ⟨hv, rfl, rfl⟩
  | false =>
    rw [State.retransmit_empty (s := s.released.clearCycle) hv]
    exact ⟨rfl, rfl, rfl⟩

theorem exec_retry_sameRetained {s t : State} (h : exec .retry s = .next t) (hv : s.retValid = true) :
    s.SameRetained t := by
  rw [execRetry_next h, State.retransmit_retained (s := s.released.clearCycle) hv]
  exact ⟨⟨rfl, rfl⟩, rfl, rfl⟩

/-- Settles O40: the first retry leaves a response retained, which the events in between and the second retry keep. -/
theorem retryIsIdempotent : Obligations.RetryIsIdempotent := by
  intro s t u v between new ht hu hbetween hnew hno hv
  obtain ⟨hvalid, htemit, htptr⟩ := exec_retry_offers ht
  obtain ⟨-, hvemit, hvptr⟩ := exec_retry_offers hv
  have hkept : t.SameRetained u := (runEvents_recordsFresh hbetween hu).sameRetained hnew hno hvalid
  have hsame : t.SameRetained v := hkept.trans (exec_retry_sameRetained hv (hkept.retValid.trans hvalid))
  refine ⟨⟨htemit, htptr, hvemit, hvptr⟩, hsame.retLen, ?_⟩
  rw [hsame.retLen]
  exact State.bytes_of_mem (sp := .ret) hsame.retBuf hsame.draws _ _

end Sys2Proof.Machine

/-! SUPPORT. The lifecycle family (44_lifecycle.md R260, R261, R263; O44, O46): what NOP and BEGIN leave, in every state. -/

namespace Sys2Proof.Machine

/-! ### NOP (R263) -/

/-- No register, buffer or agent's offer enters into it: an answer is one entry of the trace. -/
theorem exec_nop (s : State) : exec .nop s = .next (s.answer .none) := rfl

/-- Settles O44: an answer is all that NOP gives, and no state holds it. -/
theorem nopChangesNothing : Obligations.NopChangesNothing :=
  fun s => ⟨exec_nop s, rfl⟩

/-! ### BEGIN (R260, R261; log entry 7) -/

/-- The calls before both `begin()` are those of the sense and LED registers that the reset turns off (R264). -/
theorem exec_beginOp (s : State) :
    exec .beginOp s = .next { State.reset with
      enabled := true
      cfg := s.cfg
      draws := s.draws + 1
      offers := s.offers
      trace := .answered .none :: .driver .ledBegin :: .driver .senseBegin ::
        (s.readyCalls State.reset ++ s.trace) } := rfl

/-- Settles O46: the calls in front of the old trace are those the reset makes. -/
theorem beginEnablesFromTheResetState : Obligations.BeginEnablesFromTheResetState := by
  intro s
  refine ⟨_, exec_beginOp s, ?unheld, ?registers, s.readyCalls State.reset, ?calls⟩
  case unheld => rfl
  case registers => rfl
  case calls => rfl

end Sys2Proof.Machine

/-! SUPPORT. The reset and hazards family (70_reset_and_hazards.md R330, R331; O45, O47): what a disabled core does with each
offer, and the registers that RST and END leave. -/

namespace Sys2Proof.Machine

/-! ### A disabled core (R331, R160) -/

section Disabled

variable {s : State} (h : s.enabled = false)
include h

theorem State.cmdPending_of_disabled : s.cmdPending = false := by
  rw [State.cmdPending, h]; rfl

theorem State.commandOut_of_disabled : s.commandOut = false := by
  rw [State.commandOut, h]; rfl

/-- An ignored caller operation is recorded and answered, and that is all (R160, R204, R308). -/
theorem exec_withArg_disabled {op : CallerOp} (hop : op ≠ .beginOp) (arg : Byte) :
    ∃ trace, exec (op.withArg arg) s = .next { s with trace := trace } := by
  cases op with
  | nop => exact ⟨_, exec_nop s⟩
  | getNext => exact ⟨_, exec_getNext_disabled h⟩
  | consume => exact ⟨_, exec_consume_ignored (State.commandOut_of_disabled h) arg⟩
  | pushReport => exact ⟨_, exec_pushReport_ignored (State.cmdPending_of_disabled h) arg⟩
  | pushData => exact ⟨_, exec_pushData_ignored (State.cmdPending_of_disabled h) arg⟩
  | beginOp => exact absurd rfl hop
  | endOp => exact ⟨_, exec_endOp_disabled h⟩
  | unknownCmd => exact ⟨_, exec_unknownCmd_ignored (State.commandOut_of_disabled h)⟩

/-- The gate of the receive port drops the byte (R121). -/
theorem exec_decodeRx_disabled (b : Byte) : exec (decodeRx s.cfg b) s = .next s := by
  obtain ⟨f, hf⟩ := exec_decodeRx_eq_rxGate s b
  rw [hf, rxGate_disabled f h]

/-- The sink gets no byte because nothing is being emitted, which R48 (10) gives in a good state. -/
theorem exec_decodeOffer_disabled (hidle : s.txEmitting = false) {o : Offer}
    (hbegin : decodeOffer s.cfg o ≠ .beginOp) (hrst : decodeOffer s.cfg o ≠ .rst) :
    ∃ trace, exec (decodeOffer s.cfg o) s = .next { s with trace := trace } := by
  cases o with
  | callerOp w =>
    rw [decodeOffer, decodeCaller_eq_withArg] at hbegin ⊢
    exact exec_withArg_disabled h (fun hop => hbegin (by rw [hop]; rfl)) (callerArg w)
  | rxByte b => exact ⟨s.trace, exec_decodeRx_disabled h b⟩
  | txReady => exact ⟨s.trace, exec_txEmit_idle hidle⟩
  | rst => exact absurd rfl hrst

end Disabled

/-- Settles O47: whatever is offered, a disabled core records at most the answer and the annotation. -/
theorem disabledCoreIgnoresItsAgents : Obligations.DisabledCoreIgnoresItsAgents := by
  intro s o hs he hbegin hrst
  obtain ⟨-, -, -, -, -, -, -, -, hidle⟩ := hs.disabled he
  obtain ⟨trace, ht⟩ := exec_decodeOffer_disabled he hidle hbegin hrst
  exact ⟨_, ht, rfl, rfl, rfl, rfl⟩

/-! ### RST and END (R330, R262) -/

theorem exec_rst (s : State) : exec .rst s = .next s.resetCore := rfl

theorem exec_endOp_enabled {s : State} (h : s.enabled = true) : exec .endOp s = .next (s.resetCore.answer .none) :=
  if_pos h

/-- R48 (10) names every register but the buffers, so no other field is left to tell the state from the reset state. -/
theorem State.DisabledOk.eq_reset {s : State} (h : s.DisabledOk) (he : s.enabled = false) :
    s = { State.reset with
      rxBuf := s.rxBuf
      txBuf := s.txBuf
      retBuf := s.retBuf
      cfg := s.cfg
      draws := s.draws
      offers := s.offers
      trace := s.trace } := by
  obtain ⟨⟨hsize, hptr, hrecv, hesc, havail, hpend⟩, ⟨hdev, hsense, hled⟩, ⟨hout, habandon, hunknown, hreset⟩,
    hreport, hovf, hlen, hvalid, hemitPtr, hemit⟩ := h he
  cases s
  simp only at *
  subst_vars
  rfl

/-- Settles O45: RST and an effective END store the reset state; an END without effect only finds it. -/
theorem rstAndEndLeaveTheResetState : Obligations.RstAndEndLeaveTheResetState := by
  intro s i hi
  refine ⟨?unheld, fun heffect => ?reset, fun hend he => ?ignored⟩
  case unheld => rcases hi with rfl | rfl <;> rfl
  case reset =>
    rcases hi with rfl | rfl
    · exact ⟨_, exec_rst s, rfl⟩
    · exact ⟨_, exec_endOp_enabled (heffect.resolve_left nofun), rfl⟩
  case ignored =>
    subst hend
    exact ⟨exec_endOp_disabled he, fun hs => hs.disabled.eq_reset he⟩

end Sys2Proof.Machine
